-- ==== Sys2Proof/Word.lean ====
section
/-! DEFINITION. The word types of the machine (10_state.md R10 to R13, R20; 20_memory.md R42): every register but PC
is a `u8`, PC and every CPU address is a `u16`. Bit `i` is bit `i` counted from the least significant end (00_scope.md R6). -/

namespace Sys2Proof

/-- A `u8` (00_scope.md R6): the only access width of the machine (20_memory.md R42). -/
abbrev Byte := BitVec 8

/-- A `u16` (00_scope.md R6): PC and CPU addresses (10_state.md R12). -/
abbrev Addr := BitVec 16

/-- An address of the PPU's own 14-bit address space (61_ppu.md R262). -/
abbrev PpuAddr := BitVec 14

end Sys2Proof
end

