-- ==== Sys2Proof/Machine/Bits.lean ====
section
/-! DEFINITION. Bit fields, byte order and extension (00_scope.md R6, 20_memory.md R40). -/

namespace Sys2Proof.Machine

/-- `{hi, lo}` (00_scope.md R6): the high byte in the high bits. -/
def joinBytes (hi lo : Byte) : Addr := hi ++ lo

/-- `a[7:0]`. -/
def lowByte (a : Addr) : Byte := a.setWidth 8

/-- `a[15:8]`: the page of an address. -/
def highByte (a : Addr) : Byte := (a >>> 8).setWidth 8

/-- `zext_16`. -/
def zeroExtend16 (b : Byte) : Addr := b.setWidth 16

/-- `sext_16`. -/
def signExtend16 (b : Byte) : Addr := b.signExtend 16

/-- A condition as a `bit`. -/
def bitOf (b : Bool) : Byte := if b then 1#8 else 0#8

/-- `bitreverse8`: bit `i` moves to bit `7 - i` (61_ppu.md R284). -/
def reverseByte (b : Byte) : Byte := b.reverse

end Sys2Proof.Machine
end

