-- ==== Sys2Proof/Config.lean ====
section
/-! DEFINITION. The implementation parameters of 00_scope.md R4: the values this hardware takes, the alternatives a
decision keeps as a parameter, and the values the spec leaves open as constants with no body. -/

namespace Sys2Proof.Config

/-- `APU_TIMING` (62_apu.md R301, D21): how the pulse and noise timers are clocked. OPEN in the spec. -/
inductive ApuTiming where
  /-- "is-timer-cycle" toggling: the timers move on every second CPU cycle. -/
  | halfRate
  /-- the timers move on every CPU cycle, with periods counted in CPU cycles. -/
  | fullRate
  deriving DecidableEq, Repr, Inhabited

/-- `IRQ_MASKED_POLICY` (60_exceptions.md R236, D6): the fate of an Irq observed while I = 1. -/
inductive IrqMaskedPolicy where
  /-- the slot keeps `Irq` (the value of this hardware). -/
  | keep
  /-- the slot is cleared (the named alternative). -/
  | drop
  deriving DecidableEq, Repr

/-- `MMC3_IRQ_FIRE` (63_cartridge_bus_driver.md R365, D36): which clock of the MMC3 counter requests the Irq. -/
inductive Mmc3IrqFire where
  /-- the clock that finds the counter at 0 (the value of this hardware). -/
  | onUnderflow
  /-- the clock that leaves the counter at 0 (the named alternative). -/
  | onZero
  deriving DecidableEq, Repr

/-- Which `AddDecimal` and `SubDecimal` the optional decimal mode uses (42_arithmetic.md R131). -/
inductive DecimalFunctions where
  /-- the default functions that R131 writes out. -/
  | nmos
  /-- functions of which nothing is assumed, as R131 asks of a model's configuration. -/
  | unspecified
  deriving DecidableEq, Repr

/-- `PPU_LAYOUT` (61_ppu.md R261, D20): the numbering of the scanlines. The spec numbers them in one layout only; it
names a render-first one and gives no number of it (DESIGN CHOICE, log entry 14). -/
inductive PpuLayout where
  /-- scanline 0 is the VBlank-start scanline (the value of this hardware). -/
  | vblankFirst
  deriving DecidableEq, Repr

/-- `VBL_LINE`, the VBlank-start scanline (61_ppu.md R261). -/
def PpuLayout.vblLine (l : PpuLayout) : Nat :=
  match l with
  | .vblankFirst => 0

/-- `PRE_LINE`, the pre-render scanline (61_ppu.md R261). -/
def PpuLayout.preLine (l : PpuLayout) : Nat :=
  match l with
  | .vblankFirst => 20

/-- The scanline of screen row 0, the first of the 240 visible ones (61_ppu.md R261). -/
def PpuLayout.firstVisible (l : PpuLayout) : Nat :=
  match l with
  | .vblankFirst => 21

/-- `POST_LINE`, the post-render scanline (61_ppu.md R261). -/
def PpuLayout.postLine (l : PpuLayout) : Nat :=
  match l with
  | .vblankFirst => 261

/-- `UNASSIGNED_POLICY` (30_encoding.md R83, D9): what an opcode byte without a meaning does. The spec names one value
(DESIGN CHOICE, log entry 14). -/
inductive UnassignedPolicy where
  /-- `ExecuteOp` has no next state (the value of this hardware). -/
  | refuse
  deriving DecidableEq, Repr

/-- The construction-time parameters (00_scope.md R4) that are neither the cartridge nor an open value: an argument of
`State.powerOn`. They stand in the state because a step takes no other argument; no step changes them. -/
structure Params where
  /-- `RESET_A` (70_reset_and_hazards.md R390). -/
  resetA : Byte
  /-- `RESET_X` (R390). -/
  resetX : Byte
  /-- `RESET_Y` (R390). -/
  resetY : Byte
  /-- `RESET_S` (R390). -/
  resetS : Byte
  /-- `RESET_P` (R390). -/
  resetP : Byte
  /-- `RESET_CYCLES` (R390, D3). -/
  resetCycles : Nat
  /-- `PPU_LAYOUT` (61_ppu.md R261). -/
  ppuLayout : PpuLayout
  /-- `SAMPLE_DIVIDER` (62_apu.md R337): CPU cycles per output sample. -/
  sampleDivider : Nat
  /-- `FRAME_DIVIDER_PERIOD` (62_apu.md R333): CPU cycles per clock of the frame sequencer. -/
  frameDividerPeriod : Nat
  /-- `UNASSIGNED_POLICY` (30_encoding.md R83). -/
  unassigned : UnassignedPolicy
  /-- `DECIMAL_ENABLE` (42_arithmetic.md R131). -/
  decimalEnable : Bool
  /-- the two functions of the decimal mode (42_arithmetic.md R131). -/
  decimalFunctions : DecimalFunctions
  /-- `IRQ_MASKED_POLICY` (60_exceptions.md R236). -/
  irqMasked : IrqMaskedPolicy
  /-- `MMC3_IRQ_FIRE` (63_cartridge_bus_driver.md R365). -/
  mmc3IrqFire : Mmc3IrqFire
  /-- `APU_TIMING` (62_apu.md R301). -/
  apuTiming : ApuTiming
  deriving DecidableEq, Repr

/-- `APU_TIMING` is OPEN (D21): a constant without a body, so that nothing rests on either value (DESIGN CHOICE, log entry 3). -/
opaque apuTiming : ApuTiming

/-- The values of R4 this hardware takes (D2, D3, D6, D9, D18, D20, D34, D36); `APU_TIMING` stays open. -/
def params : Params where
  resetA := 0x00#8
  resetX := 0x00#8
  resetY := 0x00#8
  resetS := 0xFD#8
  resetP := 0x24#8
  resetCycles := 7
  ppuLayout := .vblankFirst
  sampleDivider := 40
  frameDividerPeriod := 7457
  unassigned := .refuse
  decimalEnable := false
  decimalFunctions := .nmos
  irqMasked := .keep
  mmc3IrqFire := .onUnderflow
  apuTiming := apuTiming

/-- `(r, carry, ovf, n, z)` as `AddDecimal` and `SubDecimal` return it (42_arithmetic.md R131). -/
abbrev DecimalResult := Byte × Bool × Bool × Bool × Bool

/-- An `AddDecimal` of which nothing is assumed (42_arithmetic.md R131, D18): a constant without a body (DEDUCED, log entry 21). -/
opaque addDecimalUnspecified : Byte → Byte → Bool → DecimalResult

/-- A `SubDecimal` of which nothing is assumed: see `addDecimalUnspecified`. -/
opaque subDecimalUnspecified : Byte → Byte → Bool → DecimalResult

/-- `OAM_DMA_STALL` is OPEN (20_memory.md R52, D14): whether the `n`-th OAM DMA reports 514 stall cycles rather than
513. A constant without a body, applied to the draw counter of the state (DESIGN CHOICE, log entry 2). -/
opaque oamDmaStallIsLong : Nat → Bool

/-- `OAM_DMA_STALL` of the `n`-th draw: a value in {513, 514} (20_memory.md R52). -/
def oamDmaStall (n : Nat) : Nat := if oamDmaStallIsLong n then 514 else 513

/-- One RGB triple of the picture handed to the video sink (61_ppu.md R287). -/
structure Rgb where
  red : Byte
  green : Byte
  blue : Byte
  deriving DecidableEq, Repr, Inhabited

/-- `PALETTE_RGB` (61_ppu.md R287): a host argument, from a 6-bit colour index and the three emphasis bits to RGB.
A constant without a body (DESIGN CHOICE, log entry 4). -/
opaque paletteRgb : BitVec 6 → BitVec 3 → Rgb

/-- Nmi and Irq service "always costs 7 cycles" (60_exceptions.md R238). -/
def serviceCycles : Nat := 7

/-- The three vectors, address of the low byte (20_memory.md R53). -/
def vectorNmi : Addr := 0xFFFA#16
/-- See `vectorNmi`. -/
def vectorReset : Addr := 0xFFFC#16
/-- See `vectorNmi`; shared by Irq and BRK. -/
def vectorIrq : Addr := 0xFFFE#16

/-- What a byte of memory that nothing has written reads as: the fill of `RAM_POWER_ON` and of every other memory the
spec leaves unspecified at power-on (10_state.md R30, D4). DESIGN CHOICE, log entry 1; every statement quantifies over
the contents instead of resting on this value. -/
def powerOnByte : Byte := 0x00#8

end Sys2Proof.Config
end

