-- ==== Sys2Proof/Machine/State.lean ====
section
/-! DEFINITION. The state of the whole machine as plain data (10_state.md R10 to R25, the device files' own variables),
the reasons a step can stop, and the state after reset (10_state.md R30, 70_reset_and_hazards.md R391). -/

namespace Sys2Proof.Machine

/-- A memory array: (location, byte) pairs in one canonical form (`Memory.wf`), locations counted from 0 inside the
array; an unlisted location reads as `Config.powerOnByte`. -/
abbrev Memory := List Host.Cell

/-- The kinds of interrupt request (60_exceptions.md R232). -/
inductive Interrupt where
  | irq
  | nmi
  | reset
  deriving DecidableEq, Repr

/-- A sprite found by the evaluation of one scanline for the next (61_ppu.md R283, `sec[i]`). -/
structure SecondarySprite where
  y : Byte
  tile : Byte
  attr : Byte
  x : Byte
  /-- whether it is sprite 0 (`zero`) -/
  isZero : Bool
  /-- the row of the sprite that the next scanline shows, 0..15 (`line`) -/
  line : BitVec 4
  deriving DecidableEq, Repr

/-- One slot of the sprite pipeline (61_ppu.md R284, `slot[i]`). -/
structure SpriteSlot where
  x : Byte
  attr : Byte
  lo : Byte
  hi : Byte
  isZero : Bool
  deriving DecidableEq, Repr

/-- One entry of the frame buffer: the arguments of `PALETTE_RGB` at the line end (61_ppu.md R287). -/
structure Pixel where
  index : BitVec 6
  emphasis : BitVec 3
  deriving DecidableEq, Repr

/-- PPU state (10_state.md R21; 61_ppu.md R281, R283, R284). -/
structure Ppu where
  ctrl : Byte
  mask : Byte
  status : Byte
  oamAddr : Byte
  /-- the source's `address` -/
  v : BitVec 15
  /-- the source's `tempAddress` -/
  t : BitVec 15
  /-- the write toggle shared by $2005 and $2006 -/
  w : Bool
  fineX : BitVec 3
  readBuffer : Byte
  /-- 256 locations -/
  oam : Memory
  /-- 32 locations -/
  palette : Memory
  /-- the two 1 KB nametable buffers: location `1024 * buffer + offset` -/
  ntRam : Memory
  /-- rows 0..239 of 256 pixels; an unlisted row is as at power-on -/
  frameBuffer : List (Nat × List Pixel)
  /-- pixels 0..255 of the scanline in progress -/
  lineBuffer : List (Nat × BitVec 6)
  ntLatch : Byte
  atLatch : BitVec 2
  ptLoLatch : Byte
  ptHiLatch : Byte
  bgLo : BitVec 16
  bgHi : BitVec 16
  atLo : BitVec 16
  atHi : BitVec 16
  /-- `sec[0 .. sec_count-1]` -/
  secondary : List SecondarySprite
  /-- `slot[0 .. spr_count-1]` -/
  slots : List SpriteSlot
  cycle : Nat
  scanline : Nat
  oddFrame : Bool
  vblankLock : Bool
  /-- the model's own: a frame was completed and the host has not taken it yet (61_ppu.md R288, DESIGN CHOICE, log entry 9) -/
  frameReady : Bool
  deriving DecidableEq, Repr

/-- A length counter with its halt flag and its $4015 enable bit (62_apu.md R302). -/
structure LengthCounter where
  enabled : Bool
  halt : Bool
  count : Byte
  deriving DecidableEq, Repr

/-- An envelope unit with its parameters L, C, V (62_apu.md R304). -/
structure Envelope where
  start : Bool
  div : BitVec 4
  decay : BitVec 4
  loop : Bool
  constant : Bool
  volume : BitVec 4
  deriving DecidableEq, Repr

/-- A sweep unit E, P, N, S with its divider (62_apu.md R305). -/
structure Sweep where
  enabled : Bool
  period : BitVec 3
  negate : Bool
  shift : BitVec 3
  div : BitVec 3
  deriving DecidableEq, Repr

/-- A pulse channel (62_apu.md R307). -/
structure Pulse where
  period : BitVec 11
  timer : BitVec 12
  seq : BitVec 3
  duty : BitVec 2
  len : LengthCounter
  env : Envelope
  sweep : Sweep
  deriving DecidableEq, Repr

/-- The triangle channel (62_apu.md R312). -/
structure Triangle where
  period : BitVec 11
  timer : BitVec 11
  seq : BitVec 5
  len : LengthCounter
  linear : BitVec 7
  reload : BitVec 7
  control : Bool
  reloadFlag : Bool
  deriving DecidableEq, Repr

/-- The noise channel (62_apu.md R316). -/
structure Noise where
  lfsr : BitVec 15
  mode : Bool
  periodIndex : BitVec 4
  timer : BitVec 12
  len : LengthCounter
  env : Envelope
  deriving DecidableEq, Repr

/-- The delta-modulation channel (62_apu.md R320). -/
structure Dmc where
  irqEnable : Bool
  loop : Bool
  rateIndex : BitVec 4
  timer : BitVec 9
  level : BitVec 7
  sampleAddr : Addr
  sampleLen : BitVec 12
  curAddr : Addr
  bytesRemaining : BitVec 12
  buffer : Byte
  bufferFull : Bool
  shift : Byte
  bitsRemaining : BitVec 4
  silence : Bool
  irq : Bool
  deriving DecidableEq, Repr

/-- The frame sequencer (62_apu.md R331 to R333). -/
structure FrameSequencer where
  /-- `fs_mode`: 5-step -/
  fiveStep : Bool
  irqInhibit : Bool
  div : Nat
  step : Nat
  /-- `frame_irq` -/
  irq : Bool
  deriving DecidableEq, Repr

/-- One output sample: the five channel outputs that `Mix()` combines (62_apu.md R336, R337). -/
structure AudioSample where
  pulse1 : BitVec 4
  pulse2 : BitVec 4
  triangle : BitVec 4
  noise : BitVec 4
  dmc : BitVec 7
  deriving DecidableEq, Repr

/-- APU state (10_state.md R22). -/
structure Apu where
  pulse1 : Pulse
  pulse2 : Pulse
  triangle : Triangle
  noise : Noise
  dmc : Dmc
  frame : FrameSequencer
  /-- `is_timer_cycle` of the half-rate timing (62_apu.md R301; its power-on value is log entry 8) -/
  isTimerCycle : Bool
  /-- `sample_div` (R301; its power-on value is log entry 8) -/
  sampleDiv : Nat
  /-- emitted samples the host has not taken yet, newest first (62_apu.md R337, DESIGN CHOICE, log entry 9) -/
  samples : List AudioSample
  deriving DecidableEq, Repr

/-- The five nametable-mirroring modes (63_cartridge_bus_driver.md R350, R367). -/
inductive Mirroring where
  | horizontal
  | vertical
  | oneScreenA
  | oneScreenB
  | fourScreen
  deriving DecidableEq, Repr

/-- The registers of an MMC1 (63_cartridge_bus_driver.md R359). -/
structure Mmc1 where
  sr : BitVec 5
  srCount : Nat
  control : BitVec 5
  chr0 : BitVec 5
  chr1 : BitVec 5
  prg : BitVec 5
  deriving DecidableEq, Repr

/-- The registers of an MMC3 (63_cartridge_bus_driver.md R362). -/
structure Mmc3 where
  bankSelect : Byte
  /-- `R[0..7]` -/
  banks : Vector Byte 8
  ramProtect : Byte
  irqLatch : Byte
  irqCounter : Byte
  irqReload : Bool
  irqEnable : Bool
  lastA12 : Bool
  deriving DecidableEq, Repr

/-- The mapper variants with the registers each owns (10_state.md R23; R356 to R362). -/
inductive Mapper where
  | nrom
  | unrom
  | gxrom
  | mmc1 (r : Mmc1)
  | mmc3 (r : Mmc3)
  deriving DecidableEq, Repr

/-- Cartridge state (10_state.md R23; 63_cartridge_bus_driver.md R350). -/
structure Cart where
  mapper : Mapper
  /-- `PRG_16K`: number of 16 KB PRG-ROM banks -/
  prg16k : Nat
  /-- `CHR_8K`: number of 8 KB CHR-ROM banks; 0 means 8 KB of CHR-RAM -/
  chr8k : Nat
  prgRom : Memory
  /-- 8192 locations -/
  prgRam : Memory
  chr : Memory
  /-- the four-screen RAM `nt_extra`: location `1024 * (buffer - 2) + offset` (R368) -/
  ntExtra : Memory
  battery : Bool
  mirroring : Mirroring
  prgSlot : Vector Nat 32
  chrSlot : Vector Nat 8
  deriving DecidableEq, Repr

/-- The two controller ports (10_state.md R24; 63_cartridge_bus_driver.md R372) with their common strobe (DEDUCED, log
entry 16). -/
structure Ports where
  strobe : Bool
  captured1 : Byte
  captured2 : Byte
  shift1 : Byte
  shift2 : Byte
  deriving DecidableEq, Repr

/-- The state of the machine between two rounds. -/
structure State where
  /-- accumulator (10_state.md R10) -/
  a : Byte
  /-- index register X (R10) -/
  x : Byte
  /-- index register Y (R10) -/
  y : Byte
  /-- stack pointer S (R11) -/
  sp : Byte
  /-- flag byte P (R13 to R15) -/
  p : Byte
  /-- program counter (R12) -/
  pc : Addr
  /-- the pending-interrupt slot (R16) -/
  pending : Option Interrupt
  /-- the cycle counter of the step in flight, after a step the count it returned (R17; DESIGN CHOICE,
  log entry 13) -/
  cyc : Nat
  /-- internal RAM, 2048 locations (R19) -/
  ram : Memory
  ppu : Ppu
  apu : Apu
  cart : Cart
  ports : Ports
  /-- construction-time parameters (00_scope.md R4; DESIGN CHOICE, log entry 14); no step changes them -/
  params : Config.Params
  /-- the model's own: the number of `OAM_DMA_STALL` values drawn so far (DESIGN CHOICE, log entry 2) -/
  dmaDraws : Nat
  deriving DecidableEq, Repr

/-- The CPU raises no synchronous fault and no access raises anything (60_exceptions.md R230; 20_memory.md R49), so
there is no reason for a fault: nobody raises one. -/
inductive Fault where
  deriving DecidableEq, Repr

/-- The reasons a step has no next state. -/
inductive Refusal where
  /-- Raised by an arm of `exec` whose instruction has no meaning yet; safe. No arm of this model uses it. -/
  | notModelled (mnemonic : String)
  /-- Raised by the 25 opcode bytes to which the spec gives no meaning, `refuse Unassigned(op)`
  (30_encoding.md R83, D9); safe: a claim about a program that reaches one says nothing. -/
  | unassigned (op : Byte)
  deriving DecidableEq, Repr

/-- The outcome of one step of this machine. -/
abbrev Result := Host.Outcome State Fault Refusal

/-- Power-on values of a length counter, an envelope and a sweep unit: every variable 0 (62_apu.md R330). -/
def LengthCounter.reset : LengthCounter where
  enabled := false
  halt := false
  count := 0#8

/-- See `LengthCounter.reset`. -/
def Envelope.reset : Envelope where
  start := false
  div := 0#4
  decay := 0#4
  loop := false
  constant := false
  volume := 0#4

/-- See `LengthCounter.reset`. -/
def Sweep.reset : Sweep where
  enabled := false
  period := 0#3
  negate := false
  shift := 0#3
  div := 0#3

/-- Power-on values of a pulse channel (62_apu.md R330). -/
def Pulse.reset : Pulse where
  period := 0#11
  timer := 0#12
  seq := 0#3
  duty := 0#2
  len := LengthCounter.reset
  env := Envelope.reset
  sweep := Sweep.reset

/-- Power-on values of the APU (62_apu.md R330, D32): everything 0 but `lfsr` 1, `bits_remaining` 8, `silence` 1, and the
sample address and length, which are as if 0x4012 and 0x4013 were written with 0x00 (DEDUCED, log entry 11).
`is_timer_cycle` and `sample_div`, variables of R301 for which the spec states no value, start at 0 (DESIGN CHOICE, log
entry 8). -/
def Apu.reset : Apu where
  pulse1 := Pulse.reset
  pulse2 := Pulse.reset
  triangle :=
    { period := 0#11, timer := 0#11, seq := 0#5, len := LengthCounter.reset, linear := 0#7, reload := 0#7,
      control := false, reloadFlag := false }
  noise :=
    { lfsr := 1#15, mode := false, periodIndex := 0#4, timer := 0#12, len := LengthCounter.reset,
      env := Envelope.reset }
  dmc :=
    { irqEnable := false, loop := false, rateIndex := 0#4, timer := 0#9, level := 0#7, sampleAddr := 0xC000#16,
      sampleLen := 1#12, curAddr := 0#16, bytesRemaining := 0#12, buffer := 0#8, bufferFull := false,
      shift := 0#8, bitsRemaining := 8#4, silence := true, irq := false }
  frame := { fiveStep := false, irqInhibit := false, div := 0, step := 0, irq := false }
  isTimerCycle := false
  sampleDiv := 0
  samples := []

/-- Power-on values of the PPU (10_state.md R30): registers and counters 0, memories as at power-on, the work of
position (0, 0) done (DEDUCED, log entry 7), the rendering pipelines empty (DESIGN CHOICE, log entry 20). -/
def Ppu.reset : Ppu where
  ctrl := 0#8
  mask := 0#8
  status := 0#8
  oamAddr := 0#8
  v := 0#15
  t := 0#15
  w := false
  fineX := 0#3
  readBuffer := 0#8
  oam := []
  palette := []
  ntRam := []
  frameBuffer := []
  lineBuffer := []
  ntLatch := 0#8
  atLatch := 0#2
  ptLoLatch := 0#8
  ptHiLatch := 0#8
  bgLo := 0#16
  bgHi := 0#16
  atLo := 0#16
  atHi := 0#16
  secondary := []
  slots := []
  cycle := 0
  scanline := 0
  oddFrame := false
  vblankLock := false
  frameReady := false

/-- The cartridge of `State.reset`: an NROM board of 32 KB PRG-ROM and 8 KB CHR-RAM that holds no image
(DESIGN CHOICE, log entry 5); its slots are those of R356. -/
def Cart.empty : Cart where
  mapper := .nrom
  prg16k := 2
  chr8k := 0
  prgRom := []
  prgRam := []
  chr := []
  ntExtra := []
  battery := false
  mirroring := .horizontal
  prgSlot := Vector.ofFn fun i => i.val
  chrSlot := Vector.ofFn fun i => i.val

/-- Controller ports at power-on (10_state.md R30); no button captured (DESIGN CHOICE, log entry 24). -/
def Ports.reset : Ports where
  strobe := false
  captured1 := 0#8
  captured2 := 0#8
  shift1 := 0#8
  shift2 := 0#8

/-- The initial state of every run (70_reset_and_hazards.md R391): the machine as constructed, with the Reset requested (DEDUCED, log entry 10).
The Reset service, the first step, loads PC from the reset vector; PC has no value before it in the spec and holds the
vector of the empty cartridge here (DESIGN CHOICE, log entry 6). -/
def State.reset : State where
  a := Config.params.resetA
  x := Config.params.resetX
  y := Config.params.resetY
  sp := Config.params.resetS
  p := Config.params.resetP
  pc := 0x0000#16
  pending := some .reset
  cyc := 0
  ram := []
  ppu := Ppu.reset
  apu := Apu.reset
  cart := Cart.empty
  ports := Ports.reset
  params := Config.params
  dmaDraws := 0

end Sys2Proof.Machine
end

