-- ==== Sys2Proof/Machine/Mem.lean ====
section
/-! DEFINITION. Sparse arrays in one canonical form: what a location holds, writing a location, and the form itself.
Every memory of the machine is one of them. -/

namespace Sys2Proof.Machine

/-- The value at location `k` of an array whose unlisted locations hold `d`. -/
def Sparse.read {α : Type} (d : α) : List (Nat × α) → Nat → α
  | [], _ => d
  | (k0, v0) :: rest, k => if k0 = k then v0 else Sparse.read d rest k

/-- List `v` at location `k`, in front of the first larger location. -/
def Sparse.insert {α : Type} (k : Nat) (v : α) : List (Nat × α) → List (Nat × α)
  | [] => [(k, v)]
  | (k0, v0) :: rest =>
    if k < k0 then (k, v) :: (k0, v0) :: rest
    else if k = k0 then (k, v) :: rest
    else (k0, v0) :: Sparse.insert k v rest

/-- Unlist location `k`. -/
def Sparse.erase {α : Type} (k : Nat) : List (Nat × α) → List (Nat × α)
  | [] => []
  | (k0, v0) :: rest => if k0 = k then Sparse.erase k rest else (k0, v0) :: Sparse.erase k rest

/-- Store `v` at location `k`; storing the value an unlisted location holds unlists it. -/
def Sparse.write {α : Type} [DecidableEq α] (d : α) (m : List (Nat × α)) (k : Nat) (v : α) : List (Nat × α) :=
  if v = d then Sparse.erase k m else Sparse.insert k v m

/-- The canonical form of an array of `size` locations: locations strictly rising and below `size`, no entry equal to
what an unlisted location holds. -/
abbrev Sparse.wf {α : Type} (d : α) (size : Nat) (m : List (Nat × α)) : Prop :=
  m.Pairwise (fun c c' => c.1 < c'.1) ∧ ∀ c ∈ m, c.1 < size ∧ c.2 ≠ d

/-- The byte at location `k` of a memory. -/
def Memory.read (m : Memory) (k : Nat) : Byte := Sparse.read Config.powerOnByte m k

/-- Store a byte at location `k` of a memory. -/
def Memory.write (m : Memory) (k : Nat) (v : Byte) : Memory := Sparse.write Config.powerOnByte m k v

/-- The canonical form of a memory of `size` locations. -/
abbrev Memory.wf (size : Nat) (m : Memory) : Prop := Sparse.wf Config.powerOnByte size m

/-- A row of the frame buffer before its first flush: unspecified in the spec, filled like memory (DESIGN CHOICE, log entry 1). -/
def blankRow : List Pixel := List.replicate 256 { index := 0#6, emphasis := 0#3 }

end Sys2Proof.Machine
end

