-- ==== Sys2Proof/Machine/ApuUnits.lean ====
section
/-! DEFINITION. The APU's units, registers, frame sequencer and mixer (62_apu.md R300 to R337), less what reaches outside
the APU (the sample DMA and the Irq requests, in Machine/ApuClock.lean). -/

namespace Sys2Proof.Machine

/-- `LENGTH_TABLE` (62_apu.md R302). -/
def lengthTable : List Nat :=
  [10, 254, 20, 2, 40, 4, 80, 6, 160, 8, 60, 10, 14, 12, 26, 14]
    ++ [12, 16, 24, 18, 48, 20, 96, 22, 192, 24, 72, 26, 16, 28, 32, 30]

/-- A length-counter load by a write of `b` to the channel's fourth register (62_apu.md R302). -/
def LengthCounter.load (b : Byte) (l : LengthCounter) : LengthCounter :=
  if l.enabled then { l with count := BitVec.ofNat 8 (lengthTable.getD (b >>> 3).toNat 0) } else l

/-- `ClockLength` (62_apu.md R302). -/
def LengthCounter.clock (l : LengthCounter) : LengthCounter :=
  if !l.halt && l.count != 0#8 then { l with count := l.count - 1#8 } else l

/-- The $4015 enable bit: a disabled channel's counter is held at 0 (62_apu.md R334). -/
def LengthCounter.enable (on : Bool) (l : LengthCounter) : LengthCounter :=
  { l with enabled := on, count := if on then l.count else 0#8 }

/-- Whether the counter is running, as $4015 reports it. -/
def LengthCounter.active (l : LengthCounter) : Bool := l.count != 0#8

/-- `ClockEnvelope` (62_apu.md R304). -/
def Envelope.clock (e : Envelope) : Envelope :=
  if e.start then { e with start := false, decay := 15#4, div := e.volume }
  else if e.div = 0#4 then
    { e with
      div := e.volume
      decay := if e.decay != 0#4 then e.decay - 1#4 else if e.loop then 15#4 else e.decay }
  else { e with div := e.div - 1#4 }

/-- `Volume` (62_apu.md R304). -/
def Envelope.output (e : Envelope) : BitVec 4 := if e.constant then e.volume else e.decay

/-- The envelope parameters of a channel's first register: L, C, V (62_apu.md R307, R316). -/
def Envelope.configure (b : Byte) (e : Envelope) : Envelope :=
  { e with loop := b.getLsbD 5, constant := b.getLsbD 4, volume := b.setWidth 4 }

/-- Which of the two pulse channels a unit belongs to; pulse 1 subtracts one more on decrease (62_apu.md R305). -/
inductive PulseId where
  | one
  | two
  deriving DecidableEq, Repr

/-- `SweepTarget` (62_apu.md R305), an unbounded integer. -/
def Pulse.sweepTarget (k : PulseId) (ch : Pulse) : Int :=
  let c : Int := (ch.period >>> ch.sweep.shift.toNat).toNat
  if ch.sweep.negate then
    match k with
    | .one => ch.period.toNat - c - 1
    | .two => ch.period.toNat - c
  else ch.period.toNat + c

/-- `SweepMuted` (62_apu.md R305). -/
def Pulse.sweepMuted (k : PulseId) (ch : Pulse) : Bool :=
  decide (ch.period.toNat < 8) || decide (0x7FF < ch.sweepTarget k)

/-- Write of a sweep register (62_apu.md R305). -/
def Pulse.writeSweep (b : Byte) (ch : Pulse) : Pulse :=
  { ch with
    sweep :=
      { enabled := b.getLsbD 7, period := b.extractLsb' 4 3, negate := b.getLsbD 3, shift := b.extractLsb' 0 3,
        div := b.extractLsb' 4 3 } }

/-- `ClockSweep` (62_apu.md R305). -/
def Pulse.clockSweep (k : PulseId) (ch : Pulse) : Pulse :=
  if ch.sweep.div != 0#3 then { ch with sweep := { ch.sweep with div := ch.sweep.div - 1#3 } }
  else
    { ch with
      sweep := { ch.sweep with div := ch.sweep.period }
      period :=
        if ch.sweep.enabled && ch.sweep.shift != 0#3 && !ch.sweepMuted k then BitVec.ofInt 11 (ch.sweepTarget k)
        else ch.period }

/-- `DUTY[D]` (62_apu.md R308), step 0 first. -/
def dutyTable (duty : BitVec 2) : List Bool :=
  match duty.toNat with
  | 0 => [false, true, false, false, false, false, false, false]
  | 1 => [false, true, true, false, false, false, false, false]
  | 2 => [false, true, true, true, true, false, false, false]
  | _ => [true, false, false, true, true, true, true, true]

/-- `ClockPulseTimer` (62_apu.md R308). -/
def Pulse.clockTimer (timing : Config.ApuTiming) (ch : Pulse) : Pulse :=
  if ch.timer = 0#12 then
    { ch with
      timer :=
        match timing with
        | .halfRate => ch.period.setWidth 12
        | .fullRate => (ch.period.setWidth 12 <<< 1) + 1#12
      seq := ch.seq + 1#3 }
  else { ch with timer := ch.timer - 1#12 }

/-- `PulseOut` (62_apu.md R309). -/
def Pulse.output (k : PulseId) (ch : Pulse) : BitVec 4 :=
  if !ch.len.active || ch.sweepMuted k || !(dutyTable ch.duty).getD ch.seq.toNat false then 0#4 else ch.env.output

/-- The four registers of a pulse channel (62_apu.md R307). -/
def Pulse.write (r : BitVec 2) (b : Byte) (ch : Pulse) : Pulse :=
  match r.toNat with
  | 0 =>
    { ch with duty := b.extractLsb' 6 2, len := { ch.len with halt := b.getLsbD 5 }, env := ch.env.configure b }
  | 1 => ch.writeSweep b
  | 2 => { ch with period := (ch.period &&& 0x700#11) ||| b.setWidth 11 }
  | _ =>
    { ch with
      period := (ch.period &&& 0x0FF#11) ||| ((b &&& 0x07#8).setWidth 11 <<< 8)
      len := ch.len.load b
      seq := 0#3
      env := { ch.env with start := true } }

/-- The registers of the triangle channel (62_apu.md R300, R312). -/
def Triangle.write (r : BitVec 2) (b : Byte) (ch : Triangle) : Triangle :=
  match r.toNat with
  | 0 =>
    { ch with control := b.getLsbD 7, len := { ch.len with halt := b.getLsbD 7 }, reload := b.setWidth 7 }
  | 1 => ch
  | 2 => { ch with period := (ch.period &&& 0x700#11) ||| b.setWidth 11 }
  | _ =>
    { ch with
      period := (ch.period &&& 0x0FF#11) ||| ((b &&& 0x07#8).setWidth 11 <<< 8)
      len := ch.len.load b
      reloadFlag := true }

/-- `ClockLinear()` (62_apu.md R314). -/
def Triangle.clockLinear (ch : Triangle) : Triangle :=
  { ch with
    linear := if ch.reloadFlag then ch.reload else if ch.linear != 0#7 then ch.linear - 1#7 else ch.linear
    reloadFlag := ch.reloadFlag && ch.control }

/-- `ClockTriangleTimer()` (62_apu.md R315). -/
def Triangle.clockTimer (ch : Triangle) : Triangle :=
  if ch.timer = 0#11 then
    { ch with
      timer := ch.period
      seq := if ch.len.active && ch.linear != 0#7 then ch.seq + 1#5 else ch.seq }
  else { ch with timer := ch.timer - 1#11 }

/-- `TriangleOut()` (62_apu.md R315): 15 down to 0, then 0 up to 15. -/
def Triangle.output (ch : Triangle) : BitVec 4 :=
  if ch.seq.toNat < 16 then BitVec.ofNat 4 (15 - ch.seq.toNat) else BitVec.ofNat 4 (ch.seq.toNat - 16)

/-- The registers of the noise channel (62_apu.md R300, R316). -/
def Noise.write (r : BitVec 2) (b : Byte) (ch : Noise) : Noise :=
  match r.toNat with
  | 0 => { ch with len := { ch.len with halt := b.getLsbD 5 }, env := ch.env.configure b }
  | 1 => ch
  | 2 => { ch with mode := b.getLsbD 7, periodIndex := b.setWidth 4 }
  | _ => { ch with len := ch.len.load b, env := { ch.env with start := true } }

/-- `NOISE_PERIOD` (62_apu.md R318), CPU cycles. -/
def noisePeriod : List Nat := [4, 8, 16, 32, 64, 96, 128, 160, 202, 254, 380, 508, 762, 1016, 2034, 4068]

/-- One shift of the noise register (62_apu.md R318). -/
def Noise.shiftRegister (ch : Noise) : BitVec 15 :=
  let feedback := ch.lfsr.getLsbD 0 != (if ch.mode then ch.lfsr.getLsbD 6 else ch.lfsr.getLsbD 1)
  (ch.lfsr >>> 1) ||| (if feedback then 0x4000#15 else 0#15)

/-- `ClockNoiseTimer()` (62_apu.md R318). -/
def Noise.clockTimer (timing : Config.ApuTiming) (ch : Noise) : Noise :=
  if ch.timer = 0#12 then
    let period := noisePeriod.getD ch.periodIndex.toNat 0
    { ch with
      timer :=
        match timing with
        | .halfRate => BitVec.ofNat 12 (period / 2 - 1)
        | .fullRate => BitVec.ofNat 12 (period - 1)
      lfsr := ch.shiftRegister }
  else { ch with timer := ch.timer - 1#12 }

/-- `NoiseOut()` (62_apu.md R318). -/
def Noise.output (ch : Noise) : BitVec 4 := if !ch.len.active || ch.lfsr.getLsbD 0 then 0#4 else ch.env.output

/-- `DMC_RATE` (62_apu.md R320), CPU cycles per output bit. -/
def dmcRate : List Nat := [428, 380, 340, 320, 286, 254, 226, 214, 190, 160, 142, 128, 106, 84, 72, 54]

/-- The registers of the DMC (62_apu.md R320). -/
def Dmc.write (r : BitVec 2) (b : Byte) (ch : Dmc) : Dmc :=
  match r.toNat with
  | 0 =>
    { ch with
      irqEnable := b.getLsbD 7
      loop := b.getLsbD 6
      rateIndex := b.setWidth 4
      irq := ch.irq && b.getLsbD 7 }
  | 1 => { ch with level := b.setWidth 7 }
  | 2 => { ch with sampleAddr := 0xC000#16 + (b.setWidth 16 <<< 6) }
  | _ => { ch with sampleLen := (b.setWidth 12 <<< 4) + 1#12 }

/-- Whether `FillBuffer()` fetches a byte (62_apu.md R326). -/
def Dmc.wantsByte (ch : Dmc) : Bool := !ch.bufferFull && ch.bytesRemaining != 0#12

/-- `FillBuffer()` with the fetched byte `b` (62_apu.md R326): the channel after it and whether it requests Irq. -/
def Dmc.takeByte (b : Byte) (ch : Dmc) : Dmc × Bool :=
  let last := ch.bytesRemaining == 1#12
  let next := if ch.curAddr = 0xFFFF#16 then 0x8000#16 else ch.curAddr + 1#16
  ({ ch with
      buffer := b
      bufferFull := true
      curAddr := if last && ch.loop then ch.sampleAddr else next
      bytesRemaining := if last && ch.loop then ch.sampleLen else ch.bytesRemaining - 1#12
      irq := ch.irq || (last && !ch.loop && ch.irqEnable) },
    last && !ch.loop && ch.irqEnable)

/-- The DAC counter after one output bit (62_apu.md R325). -/
def dmcLevel (level : BitVec 7) (bit : Bool) : BitVec 7 :=
  let hi := level &&& 0x7E#7
  let lo := level &&& 0x01#7
  let hi :=
    if bit then (if hi.toNat + 2 ≤ 126 then hi + 2#7 else hi)
    else (if 2 ≤ hi.toNat then hi - 2#7 else hi)
  hi ||| lo

/-- The output unit of `ClockDmc()`, after `FillBuffer()` (62_apu.md R325). -/
def Dmc.clockOutput (ch : Dmc) : Dmc :=
  if ch.timer ≠ 0#9 then { ch with timer := ch.timer - 1#9 }
  else
    let bits := if ch.bitsRemaining != 0#4 then ch.bitsRemaining - 1#4 else ch.bitsRemaining
    let restart := bits == 0#4
    { ch with
      timer := BitVec.ofNat 9 (dmcRate.getD ch.rateIndex.toNat 0 - 1)
      level := if ch.silence then ch.level else dmcLevel ch.level (ch.shift.getLsbD 0)
      bitsRemaining := if restart then 8#4 else bits
      silence := if restart then !ch.bufferFull else ch.silence
      shift := if restart && ch.bufferFull then ch.buffer else ch.shift >>> 1
      bufferFull := ch.bufferFull && !restart }

/-- Starting and stopping a sample by $4015 bit 4, and the flag any $4015 write clears (62_apu.md R327, R334). -/
def Dmc.enable (on : Bool) (ch : Dmc) : Dmc :=
  { ch with
    curAddr := if on && ch.bytesRemaining == 0#12 then ch.sampleAddr else ch.curAddr
    bytesRemaining :=
      if !on then 0#12 else if ch.bytesRemaining == 0#12 then ch.sampleLen else ch.bytesRemaining
    irq := false }

/-- "envelope+linear" (62_apu.md R332). -/
def Apu.quarterClock (u : Apu) : Apu :=
  { u with
    pulse1 := { u.pulse1 with env := u.pulse1.env.clock }
    pulse2 := { u.pulse2 with env := u.pulse2.env.clock }
    noise := { u.noise with env := u.noise.env.clock }
    triangle := u.triangle.clockLinear }

/-- "length+sweep" (62_apu.md R332). -/
def Apu.halfClock (u : Apu) : Apu :=
  { u with
    pulse1 := Pulse.clockSweep .one { u.pulse1 with len := u.pulse1.len.clock }
    pulse2 := Pulse.clockSweep .two { u.pulse2 with len := u.pulse2.len.clock }
    triangle := { u.triangle with len := u.triangle.len.clock }
    noise := { u.noise with len := u.noise.len.clock } }

/-- The actions of a row of the step table (62_apu.md R332): envelope+linear, length+sweep, IRQ-flag set. -/
def FrameSequencer.actions (f : FrameSequencer) : Bool × Bool × Bool :=
  if f.fiveStep then
    match f.step with
    | 0 | 2 => (true, true, false)
    | 1 | 3 => (true, false, false)
    | _ => (false, false, false)
  else
    match f.step with
    | 1 => (true, true, false)
    | 3 => (true, true, true)
    | _ => (true, false, false)

/-- `ClockSequencer()` (62_apu.md R332): the APU after it and whether it requests Irq. -/
def Apu.clockSequencer (u : Apu) : Apu × Bool :=
  let (quarter, half, flag) := u.frame.actions
  let fire := flag && !u.frame.irqInhibit
  let v := if quarter then u.quarterClock else u
  let v := if half then v.halfClock else v
  let last := if u.frame.fiveStep then 5 else 4
  ({ v with
      frame := { u.frame with
        irq := u.frame.irq || fire
        step := if u.frame.step + 1 = last then 0 else u.frame.step + 1 } },
    fire)

/-- `ClockFrameDivider()` (62_apu.md R333) with `FRAME_DIVIDER_PERIOD`: the APU after it and whether it requests Irq. -/
def Apu.clockFrameDivider (period : Nat) (u : Apu) : Apu × Bool :=
  if u.frame.div + 1 = period then
    Apu.clockSequencer { u with frame := { u.frame with div := 0 } }
  else ({ u with frame := { u.frame with div := u.frame.div + 1 } }, false)

/-- `Write4017(b)` (62_apu.md R331). In 5-step mode it clocks step 0 once, which never sets the IRQ flag. -/
def Apu.writeFrame (b : Byte) (u : Apu) : Apu :=
  let u := { u with
    frame :=
      { fiveStep := b.getLsbD 7, irqInhibit := b.getLsbD 6, div := 0, step := 0, irq := u.frame.irq && !b.getLsbD 6 } }
  if b.getLsbD 7 then u.clockSequencer.1 else u

/-- `Write4015(b)` (62_apu.md R334). -/
def Apu.writeEnables (b : Byte) (u : Apu) : Apu :=
  { u with
    pulse1 := { u.pulse1 with len := u.pulse1.len.enable (b.getLsbD 0) }
    pulse2 := { u.pulse2 with len := u.pulse2.len.enable (b.getLsbD 1) }
    triangle := { u.triangle with len := u.triangle.len.enable (b.getLsbD 2) }
    noise := { u.noise with len := u.noise.len.enable (b.getLsbD 3) }
    dmc := u.dmc.enable (b.getLsbD 4) }

/-- The byte `Read4015()` returns (62_apu.md R335). -/
def Apu.statusByte (u : Apu) : Byte :=
  bitOf u.pulse1.len.active ||| (bitOf u.pulse2.len.active <<< 1) ||| (bitOf u.triangle.len.active <<< 2)
    ||| (bitOf u.noise.len.active <<< 3) ||| (bitOf (u.dmc.bytesRemaining != 0#12) <<< 4)
    ||| (bitOf u.frame.irq <<< 6) ||| (bitOf u.dmc.irq <<< 7)

/-- `Read4015()` (62_apu.md R335), the state after it. -/
def Apu.touchStatus (u : Apu) : Apu := { u with frame := { u.frame with irq := false } }

/-- A write of a channel register 0x4000–0x4013 (62_apu.md R300); `r` is the address less 0x4000. -/
def Apu.writeChannel (r : BitVec 5) (b : Byte) (u : Apu) : Apu :=
  let reg : BitVec 2 := r.extractLsb' 0 2
  match (r >>> 2).toNat with
  | 0 => { u with pulse1 := u.pulse1.write reg b }
  | 1 => { u with pulse2 := u.pulse2.write reg b }
  | 2 => { u with triangle := u.triangle.write reg b }
  | 3 => { u with noise := u.noise.write reg b }
  | 4 => { u with dmc := u.dmc.write reg b }
  | _ => u

/-- Whether the pulse and noise timers are clocked in this CPU cycle (62_apu.md R301). -/
def Apu.timersTick (timing : Config.ApuTiming) (u : Apu) : Bool :=
  match timing with
  | .halfRate => !u.isTimerCycle
  | .fullRate => true

/-- The pulse and noise timers in one CPU cycle (62_apu.md R301). -/
def Apu.clockTimers (timing : Config.ApuTiming) (u : Apu) : Apu :=
  { u with
    isTimerCycle :=
      match timing with
      | .halfRate => !u.isTimerCycle
      | .fullRate => u.isTimerCycle
    pulse1 := if u.timersTick timing then u.pulse1.clockTimer timing else u.pulse1
    pulse2 := if u.timersTick timing then u.pulse2.clockTimer timing else u.pulse2
    noise := if u.timersTick timing then u.noise.clockTimer timing else u.noise }

/-- The five channel outputs at this cycle (62_apu.md R336). -/
def Apu.sample (u : Apu) : AudioSample where
  pulse1 := u.pulse1.output .one
  pulse2 := u.pulse2.output .two
  triangle := u.triangle.output
  noise := u.noise.output
  dmc := u.dmc.level

/-- The downsampler (62_apu.md R301, R337): every `SAMPLE_DIVIDER`-th cycle emits a sample. -/
def Apu.clockSampler (divider : Nat) (u : Apu) : Apu :=
  if u.sampleDiv + 1 = divider then { u with sampleDiv := 0, samples := u.sample :: u.samples }
  else { u with sampleDiv := u.sampleDiv + 1 }

/-- `pulse_table[n]` (62_apu.md R336), exact. -/
def pulseTable (n : Nat) : Rat := if n = 0 then 0 else (9552 / 100) / (8128 / n + 100)

/-- `tnd_table[n]` (62_apu.md R336), exact. -/
def tndTable (n : Nat) : Rat := if n = 0 then 0 else (16367 / 100) / (24329 / n + 100)

/-- `Mix()` of a sample (62_apu.md R336), an exact number in [0, 1) (DESIGN CHOICE, log entry 18). -/
def AudioSample.mix (o : AudioSample) : Rat :=
  pulseTable (o.pulse1.toNat + o.pulse2.toNat)
    + tndTable (3 * o.triangle.toNat + 2 * o.noise.toNat + o.dmc.toNat)

end Sys2Proof.Machine
end

