-- ==== Sys2Proof/Machine/Cartridge.lean ====
section
/-! DEFINITION. The cartridge: PRG and CHR bank mux, the five mappers, the MMC3 Irq counter, nametable mirroring
(63_cartridge_bus_driver.md R350 to R368). -/

namespace Sys2Proof.Machine

/-- `NP`, the number of 1 KB banks of `prg_rom` (R352). -/
def Cart.prgBanks (c : Cart) : Nat := 16 * c.prg16k

/-- Whether `chr` is RAM (R350). -/
def Cart.chrIsRam (c : Cart) : Bool := c.chr8k == 0

/-- `NC`, the number of 1 KB banks of `chr` (R354). -/
def Cart.chrBanks (c : Cart) : Nat := if c.chrIsRam then 8 else 8 * c.chr8k

/-- `SetPrg(base, n, first)` (R352): the `mod NP` is the mask of R355. -/
def Cart.setPrg (base n first : Nat) (c : Cart) : Cart :=
  { c with
    prgSlot := Vector.ofFn fun i =>
      if base ≤ i.val ∧ i.val < base + n then (first + (i.val - base)) % c.prgBanks else c.prgSlot[i] }

/-- `SetChr(base, n, first)` (R354). -/
def Cart.setChr (base n first : Nat) (c : Cart) : Cart :=
  { c with
    chrSlot := Vector.ofFn fun i =>
      if base ≤ i.val ∧ i.val < base + n then (first + (i.val - base)) % c.chrBanks else c.chrSlot[i] }

/-- The location of `prg_rom` behind a CPU address of 0x8000–0xFFFF (R352). -/
def Cart.prgLocation (c : Cart) (a : Addr) : Nat :=
  let slot : BitVec 5 := a.extractLsb' 10 5
  1024 * c.prgSlot[slot.toNat]'(slot.isLt) + (a &&& 0x03FF#16).toNat

/-- The location of `chr` behind a PPU address of 0x0000–0x1FFF (R354). -/
def Cart.chrLocation (c : Cart) (a : PpuAddr) : Nat :=
  let slot : BitVec 3 := a.extractLsb' 10 3
  1024 * c.chrSlot[slot.toNat]'(slot.isLt) + (a &&& 0x03FF#14).toNat

/-- `readPrg` (R352). -/
def Cart.readPrg (c : Cart) (a : Addr) : Byte :=
  if 0x8000 ≤ a.toNat then c.prgRom.read (c.prgLocation a)
  else if 0x6000 ≤ a.toNat then c.prgRam.read (a.toNat - 0x6000)
  else 0#8

/-- `Mmc1Update()` (R361). It sets the mirroring from `control` whatever it was, FourScreen included, although R368 has a
cartridge in that mode keep it (DEDUCED, log entry 25). -/
def Cart.mmc1Update (r : Mmc1) (c : Cart) : Cart :=
  let c := { c with
    mapper := .mmc1 r
    mirroring :=
      match (r.control.extractLsb' 0 2).toNat with
      | 0 => .oneScreenA
      | 1 => .oneScreenB
      | 2 => .vertical
      | _ => .horizontal }
  let c :=
    if r.control.getLsbD 4 then (c.setChr 0 4 (4 * r.chr0.toNat)).setChr 4 4 (4 * r.chr1.toNat)
    else c.setChr 0 8 (4 * (r.chr0 &&& 0x1E#5).toNat)
  let bank := (r.prg.extractLsb' 0 4).toNat
  match (r.control.extractLsb' 2 2).toNat with
  | 2 => (c.setPrg 0 16 0).setPrg 16 16 (16 * bank)
  | 3 => (c.setPrg 0 16 (16 * bank)).setPrg 16 16 (c.prgBanks - 16)
  | _ => c.setPrg 0 32 (16 * (r.prg.extractLsb' 0 4 &&& 0x0E#4).toNat)

/-- `MapperWrite` of MMC1 (R360). -/
def Cart.mmc1Write (r : Mmc1) (a : Addr) (b : Byte) (c : Cart) : Cart :=
  if b.getLsbD 7 then
    c.mmc1Update { r with sr := 0#5, srCount := 0, control := r.control ||| 0x0C#5 }
  else
    let sr := r.sr ||| ((b &&& 1#8).setWidth 5 <<< r.srCount)
    if r.srCount + 1 = 5 then
      let r := { r with sr := 0#5, srCount := 0 }
      c.mmc1Update <|
        match (a.extractLsb' 13 2).toNat with
        | 0 => { r with control := sr }
        | 1 => { r with chr0 := sr }
        | 2 => { r with chr1 := sr }
        | _ => { r with prg := sr }
    else { c with mapper := .mmc1 { r with sr := sr, srCount := r.srCount + 1 } }

/-- `Mmc3Update()` (R363). -/
def Cart.mmc3Update (r : Mmc3) (c : Cart) : Cart :=
  let bank (i : Fin 8) : Nat := r.banks[i].toNat
  let pair (i : Fin 8) : Nat := (r.banks[i] &&& 0xFE#8).toNat
  let c := { c with mapper := .mmc3 r }
  let c :=
    if r.bankSelect.getLsbD 7 then
      ((((c.setChr 0 1 (bank 2)).setChr 1 1 (bank 3)).setChr 2 1 (bank 4)).setChr 3 1 (bank 5)
        |>.setChr 4 2 (pair 0)).setChr 6 2 (pair 1)
    else
      ((((c.setChr 0 2 (pair 0)).setChr 2 2 (pair 1)).setChr 4 1 (bank 2)).setChr 5 1 (bank 3)
        |>.setChr 6 1 (bank 4)).setChr 7 1 (bank 5)
  if r.bankSelect.getLsbD 6 then
    ((c.setPrg 0 8 (c.prgBanks - 16)).setPrg 8 8 (8 * bank 7)).setPrg 16 8 (8 * bank 6)
      |>.setPrg 24 8 (c.prgBanks - 8)
  else
    ((c.setPrg 0 8 (8 * bank 6)).setPrg 8 8 (8 * bank 7)).setPrg 16 8 (c.prgBanks - 16)
      |>.setPrg 24 8 (c.prgBanks - 8)

/-- `MapperWrite` of MMC3 (R364), the register chosen by address bits 14:13 and bit 0. -/
def Cart.mmc3Write (r : Mmc3) (a : Addr) (b : Byte) (c : Cart) : Cart :=
  let odd := a.getLsbD 0
  match (a.extractLsb' 13 2).toNat with
  | 0 =>
    if odd then
      let n : BitVec 3 := r.bankSelect.extractLsb' 0 3
      c.mmc3Update { r with banks := r.banks.set n.toNat b n.isLt }
    else c.mmc3Update { r with bankSelect := b }
  | 1 =>
    if odd then { c with mapper := .mmc3 { r with ramProtect := b } }
    else if c.mirroring = .fourScreen then c
    else { c with mirroring := if b.getLsbD 0 then .horizontal else .vertical }
  | 2 =>
    if odd then { c with mapper := .mmc3 { r with irqReload := true } }
    else { c with mapper := .mmc3 { r with irqLatch := b } }
  | _ => { c with mapper := .mmc3 { r with irqEnable := odd } }

/-- `MapperWrite(a, b)` for a CPU address of 0x8000–0xFFFF (R356 to R364). -/
def Cart.mapperWrite (a : Addr) (b : Byte) (c : Cart) : Cart :=
  match c.mapper with
  | .nrom => c
  | .unrom => c.setPrg 0 16 (16 * b.toNat)
  | .gxrom => (c.setPrg 0 32 (32 * (b.extractLsb' 4 2).toNat)).setChr 0 8 (8 * (b.extractLsb' 0 2).toNat)
  | .mmc1 r => c.mmc1Write r a b
  | .mmc3 r => c.mmc3Write r a b

/-- `writePrg` (R352). -/
def Cart.writePrg (a : Addr) (b : Byte) (c : Cart) : Cart :=
  if 0x8000 ≤ a.toNat then c.mapperWrite a b
  else if 0x6000 ≤ a.toNat then { c with prgRam := c.prgRam.write (a.toNat - 0x6000) b }
  else c

/-- `ClockIrqCounter()` (R365): the registers after the clock and whether the Irq is requested. -/
def Mmc3.clockIrq (fire : Config.Mmc3IrqFire) (r : Mmc3) : Mmc3 × Bool :=
  match fire with
  | .onUnderflow =>
    if r.irqReload then ({ r with irqCounter := r.irqLatch, irqReload := false }, false)
    else if r.irqCounter = 0#8 then ({ r with irqCounter := r.irqLatch }, r.irqEnable)
    else ({ r with irqCounter := r.irqCounter - 1#8 }, false)
  | .onZero =>
    let r :=
      if r.irqCounter = 0#8 || r.irqReload then { r with irqCounter := r.irqLatch, irqReload := false }
      else { r with irqCounter := r.irqCounter - 1#8 }
    (r, r.irqCounter = 0#8 && r.irqEnable)

/-- `ObserveA12(a)` (R365), on every CHR access, MMC3 only: the cartridge after it and whether the Irq is requested. -/
def Cart.observeA12 (fire : Config.Mmc3IrqFire) (a : PpuAddr) (c : Cart) : Cart × Bool :=
  match c.mapper with
  | .mmc3 r =>
    let high := a.getLsbD 12
    let clocked := if !r.lastA12 && high then r.clockIrq fire else (r, false)
    ({ c with mapper := .mmc3 { clocked.1 with lastA12 := high } }, clocked.2)
  | _ => (c, false)

/-- The byte `readChr` returns (R354); its effect is `observeA12`. -/
def Cart.readChr (c : Cart) (a : PpuAddr) : Byte := c.chr.read (c.chrLocation a)

/-- The store of `writeChr` (R354): CHR-ROM ignores it; its other effect is `observeA12`. -/
def Cart.writeChr (a : PpuAddr) (b : Byte) (c : Cart) : Cart :=
  if c.chrIsRam then { c with chr := c.chr.write (c.chrLocation a) b } else c

/-- `NtBuffer(mirroring, n)` (R367). -/
def Mirroring.buffer (m : Mirroring) (n : BitVec 2) : BitVec 2 :=
  match m with
  | .horizontal => n >>> 1
  | .vertical => n &&& 1#2
  | .oneScreenA => 0#2
  | .oneScreenB => 1#2
  | .fourScreen => n

/-- The buffer and the offset behind a nametable address (R367): `n = (a >> 10) & 3`, offset `a & 0x03FF`. -/
def Cart.nametableLocation (c : Cart) (a : PpuAddr) : BitVec 2 × Nat :=
  (c.mirroring.buffer (a.extractLsb' 10 2), (a &&& 0x03FF#14).toNat)

/-- The state of a variant at construction, before its slots are computed (R356 to R362). -/
inductive MapperKind where
  | nrom
  | mmc1
  | unrom
  | mmc3
  | gxrom
  deriving DecidableEq, Repr

/-- The `CartridgeImage` and mapper number the host constructs the machine with (R350). -/
structure CartridgeImage where
  kind : MapperKind
  prg16k : Nat
  chr8k : Nat
  prgRom : Memory
  prgRam : Memory
  chr : Memory
  ntExtra : Memory
  battery : Bool
  mirroring : Mirroring
  deriving DecidableEq, Repr

/-- MMC1 registers at construction (R359). -/
def Mmc1.reset : Mmc1 where
  sr := 0#5
  srCount := 0
  control := 0x0C#5
  chr0 := 0#5
  chr1 := 0#5
  prg := 0#5

/-- MMC3 registers at construction (R362): all 0. -/
def Mmc3.reset : Mmc3 where
  bankSelect := 0#8
  banks := Vector.replicate 8 0#8
  ramProtect := 0#8
  irqLatch := 0#8
  irqCounter := 0#8
  irqReload := false
  irqEnable := false
  lastA12 := false

/-- The cartridge at construction (R356 to R362): the variant's registers and the slots it computes from them. The
mirroring is the image's (10_state.md R30), but on an MMC1 the one its `control` register selects, OneScreenA (R359, R361;
DEDUCED, log entry 25). -/
def Cart.construct (image : CartridgeImage) : Cart :=
  let c : Cart :=
    { mapper := .nrom, prg16k := image.prg16k, chr8k := image.chr8k, prgRom := image.prgRom, prgRam := image.prgRam,
      chr := image.chr, ntExtra := image.ntExtra, battery := image.battery, mirroring := image.mirroring,
      prgSlot := Vector.replicate 32 0, chrSlot := Vector.replicate 8 0 }
  match image.kind with
  | .nrom => (c.setPrg 0 32 0).setChr 0 8 0
  | .unrom => (({ c with mapper := .unrom }.setPrg 0 16 0).setPrg 16 16 (c.prgBanks - 16)).setChr 0 8 0
  | .gxrom => ({ c with mapper := .gxrom }.setPrg 0 32 0).setChr 0 8 0
  | .mmc1 => c.mmc1Update Mmc1.reset
  | .mmc3 => c.mmc3Update Mmc3.reset

end Sys2Proof.Machine
end

