-- ==== Sys2Proof/Machine/Requests.lean ====
section
/-! DEFINITION. Interrupt requests and the pending slot (10_state.md R16; 60_exceptions.md R233). -/

namespace Sys2Proof.Machine

/-- `rank(k)`: Reset over Nmi over Irq over None (60_exceptions.md R233). -/
def rank : Option Interrupt → Nat
  | none => 0
  | some .irq => 1
  | some .nmi => 2
  | some .reset => 3

/-- The slot after `Request(k)`: a request of the same or a lower priority is lost (R233). -/
def mergeRequest (k : Interrupt) (slot : Option Interrupt) : Option Interrupt :=
  if rank slot < rank (some k) then some k else slot

/-- The slot after a request that a device makes only if `made`. -/
def mergeIf (made : Bool) (k : Interrupt) (slot : Option Interrupt) : Option Interrupt :=
  if made then mergeRequest k slot else slot

/-- `Request(k)`, recorded whatever the value of I (R233). -/
def State.request (k : Interrupt) (s : State) : State := { s with pending := mergeRequest k s.pending }

end Sys2Proof.Machine
end

