-- ==== Sys2Proof/Machine/PpuRegisters.lean ====
section
/-! DEFINITION. The PPU address space and the eight PPU registers (61_ppu.md R262 to R274). A read is given by two
functions: the byte it returns (`peek…`) and the state after it (`touch…`). -/

namespace Sys2Proof.Machine

/-- `PalIndex(a)` (61_ppu.md R263). -/
def palIndex (a : BitVec 5) : Nat :=
  if a = 0x10#5 ∨ a = 0x14#5 ∨ a = 0x18#5 ∨ a = 0x1C#5 then a.toNat - 0x10 else a.toNat

/-- The byte `PpuRead(a)` returns (61_ppu.md R262). -/
def State.peekPpu (s : State) (a : PpuAddr) : Byte :=
  if a.toNat < 0x2000 then s.cart.readChr a
  else if a.toNat < 0x3F00 then
    let (buffer, offset) := s.cart.nametableLocation a
    if buffer.toNat < 2 then s.ppu.ntRam.read (1024 * buffer.toNat + offset)
    else s.cart.ntExtra.read (1024 * (buffer.toNat - 2) + offset)
  else s.ppu.palette.read (palIndex (a.setWidth 5))

/-- The cartridge's view of a PPU access: only an access of 0x0000–0x1FFF is a CHR access (R262, R365;
DEDUCED, log entry 19). -/
def State.observe (s : State) (a : PpuAddr) : Cart × Bool :=
  if a.toNat < 0x2000 then s.cart.observeA12 s.params.mmc3IrqFire a else (s.cart, false)

/-- The state after `PpuRead(a)`: on MMC3 a CHR access may clock the Irq counter (63_cartridge_bus_driver.md R365). -/
def State.touchPpu (a : PpuAddr) (s : State) : State :=
  { s with cart := (s.observe a).1, pending := mergeIf (s.observe a).2 .irq s.pending }

/-- `PpuWrite(a, b)` (61_ppu.md R262, R263). -/
def State.writePpu (a : PpuAddr) (b : Byte) (s : State) : State :=
  if a.toNat < 0x2000 then
    let s := s.touchPpu a
    { s with cart := s.cart.writeChr a b }
  else if a.toNat < 0x3F00 then
    let (buffer, offset) := s.cart.nametableLocation a
    if buffer.toNat < 2 then
      { s with ppu := { s.ppu with ntRam := s.ppu.ntRam.write (1024 * buffer.toNat + offset) b } }
    else { s with cart := { s.cart with ntExtra := s.cart.ntExtra.write (1024 * (buffer.toNat - 2) + offset) b } }
  else
    { s with ppu := { s.ppu with palette := s.ppu.palette.write (palIndex (a.setWidth 5)) (b &&& 0x3F#8) } }

/-- What a $2007 access adds to `v`: 32 or 1 by `ctrl[2]` (61_ppu.md R272). -/
def Ppu.vStep (p : Ppu) : BitVec 15 := if p.ctrl.getLsbD 2 then 32#15 else 1#15

/-- `v & 0x3FFF`, the address $2007 uses (61_ppu.md R268). -/
def Ppu.dataAddress (p : Ppu) : PpuAddr := p.v.setWidth 14

/-- The byte a CPU read of register `r` returns: a write-only register reads 0 (20_memory.md R49; 61_ppu.md R264 to
R273). -/
def State.peekPpuRegister (s : State) (r : BitVec 3) : Byte :=
  match r.toNat with
  | 2 => s.ppu.status &&& 0xE0#8
  | 4 => s.ppu.oam.read s.ppu.oamAddr.toNat
  | 7 => if s.ppu.dataAddress.toNat < 0x3F00 then s.ppu.readBuffer else s.peekPpu s.ppu.dataAddress
  | _ => 0#8

/-- `Read2002()` (61_ppu.md R266), the state after it. -/
def Ppu.touchStatus (layout : Config.PpuLayout) (p : Ppu) : Ppu :=
  { p with
    status := p.status &&& 0x7F#8
    w := false
    vblankLock := p.vblankLock || (p.scanline == layout.postLine && p.cycle == 340) }

/-- `Read2007()` (61_ppu.md R273), the state after it: the buffer takes the byte at `v`, or the nametable byte under
the palette. -/
def State.touchData (s : State) : State :=
  let a := s.ppu.dataAddress
  let under := if a.toNat < 0x3F00 then a else a - 0x1000#14
  let s' := s.touchPpu under
  { s' with ppu := { s.ppu with readBuffer := s.peekPpu under, v := s.ppu.v + s.ppu.vStep } }

/-- The state after a CPU read of register `r`. -/
def State.touchPpuRegister (r : BitVec 3) (s : State) : State :=
  match r.toNat with
  | 2 => { s with ppu := s.ppu.touchStatus s.params.ppuLayout }
  | 7 => s.touchData
  | _ => s

/-- Write of $2000 (61_ppu.md R264). -/
def Ppu.writeCtrl (b : Byte) (p : Ppu) : Ppu :=
  { p with ctrl := b, t := (p.t &&& 0x73FF#15) ||| ((b &&& 0x03#8).setWidth 15 <<< 10) }

/-- The "NMI re-fire" of a $2000 write (61_ppu.md R264, D27). -/
def Ppu.ctrlRefires (b : Byte) (p : Ppu) : Bool :=
  !p.ctrl.getLsbD 7 && b.getLsbD 7 && p.status.getLsbD 7

/-- `Write2005(b)` (61_ppu.md R269). -/
def Ppu.writeScroll (b : Byte) (p : Ppu) : Ppu :=
  if p.w then
    { p with
      t := (p.t &&& 0x0C1F#15) ||| ((b &&& 0x07#8).setWidth 15 <<< 12) ||| ((b >>> 3).setWidth 15 <<< 5)
      w := false }
  else { p with t := (p.t &&& 0x7FE0#15) ||| (b >>> 3).setWidth 15, fineX := b.setWidth 3, w := true }

/-- `Write2006(b)` (61_ppu.md R269). -/
def Ppu.writeAddress (b : Byte) (p : Ppu) : Ppu :=
  if p.w then
    let t := (p.t &&& 0x7F00#15) ||| b.setWidth 15
    { p with t := t, v := t, w := false }
  else { p with t := (p.t &&& 0x00FF#15) ||| ((b &&& 0x3F#8).setWidth 15 <<< 8), w := true }

/-- Write of $2004 (61_ppu.md R267). -/
def Ppu.writeOamData (b : Byte) (p : Ppu) : Ppu :=
  { p with oam := p.oam.write p.oamAddr.toNat b, oamAddr := p.oamAddr + 1#8 }

/-- Write of $2007 (61_ppu.md R272). -/
def State.writeData (b : Byte) (s : State) : State :=
  let s' := s.writePpu s.ppu.dataAddress b
  { s' with ppu := { s'.ppu with v := s.ppu.v + s.ppu.vStep } }

/-- A CPU write of register `r`; the read-only $2002 ignores it (20_memory.md R49; 61_ppu.md R264 to R272). -/
def State.writePpuRegister (r : BitVec 3) (b : Byte) (s : State) : State :=
  match r.toNat with
  | 0 => { s with ppu := s.ppu.writeCtrl b, pending := mergeIf (s.ppu.ctrlRefires b) .nmi s.pending }
  | 1 => { s with ppu := { s.ppu with mask := b } }
  | 3 => { s with ppu := { s.ppu with oamAddr := b } }
  | 4 => { s with ppu := s.ppu.writeOamData b }
  | 5 => { s with ppu := s.ppu.writeScroll b }
  | 6 => { s with ppu := s.ppu.writeAddress b }
  | 7 => s.writeData b
  | _ => s

end Sys2Proof.Machine
end

