-- ==== Sys2Proof/Machine/Bus.lean ====
section
/-! DEFINITION. The Bus: address decode of the CPU address space, reads with their side effects, writes with their stall
cycles, the OAM DMA and the controller ports (20_memory.md R45 to R54; 63_cartridge_bus_driver.md R372). A read is given
by two functions: the byte it returns (`peek`) and the state after it (`touch`). -/

namespace Sys2Proof.Machine

/-- The regions of the CPU address map (20_memory.md R45, R48). -/
inductive Region where
  /-- 0x0000–0x1FFF, RAM at the given location (R46) -/
  | ram (location : Nat)
  /-- 0x2000–0x3FFF, PPU register (R47) -/
  | ppu (r : BitVec 3)
  /-- 0x4000–0x4013, APU channel register -/
  | apuChannel (r : BitVec 5)
  /-- 0x4014 -/
  | oamDma
  /-- 0x4015 -/
  | apuStatus
  /-- 0x4016 -/
  | port1
  /-- 0x4017 -/
  | port2
  /-- 0x4018–0x401F (R49) -/
  | unmapped
  /-- 0x4020–0xFFFF (R51) -/
  | cartridge
  deriving DecidableEq, Repr

/-- The address decode (20_memory.md R45, R48). -/
def region (a : Addr) : Region :=
  if a.toNat < 0x2000 then .ram (a &&& 0x07FF#16).toNat
  else if a.toNat < 0x4000 then .ppu (a.setWidth 3)
  else if a.toNat < 0x4014 then .apuChannel (a.setWidth 5)
  else if a.toNat = 0x4014 then .oamDma
  else if a.toNat = 0x4015 then .apuStatus
  else if a.toNat = 0x4016 then .port1
  else if a.toNat = 0x4017 then .port2
  else if a.toNat < 0x4020 then .unmapped
  else .cartridge

/-- The bit a read of a controller port returns (63_cartridge_bus_driver.md R372). -/
def portBit (strobe : Bool) (captured shift : Byte) : Byte := bitOf ((if strobe then captured else shift).getLsbD 0)

/-- A controller's shift register after a read (63_cartridge_bus_driver.md R372): ones shift in. -/
def portShift (strobe : Bool) (captured shift : Byte) : Byte := if strobe then captured else (shift >>> 1) ||| 0x80#8

/-- A write of $4016 (63_cartridge_bus_driver.md R372). -/
def Ports.writeStrobe (b : Byte) (q : Ports) : Ports :=
  if b.getLsbD 0 then { q with strobe := true, shift1 := q.captured1, shift2 := q.captured2 }
  else { q with strobe := false }

/-- The byte `MemRead(a, 1)` returns (20_memory.md R45 to R51); unmapped and write-only addresses read 0 (R49). -/
def State.peek (s : State) (a : Addr) : Byte :=
  match region a with
  | .ram k => s.ram.read k
  | .ppu r => s.peekPpuRegister r
  | .apuStatus => s.apu.statusByte
  | .port1 => portBit s.ports.strobe s.ports.captured1 s.ports.shift1
  | .port2 => portBit s.ports.strobe s.ports.captured2 s.ports.shift2
  | .cartridge => s.cart.readPrg a
  | .apuChannel _ | .oamDma | .unmapped => 0#8

/-- The state after `MemRead(a, 1)`: the side effects of 20_memory.md R50. -/
def State.touch (a : Addr) (s : State) : State :=
  match region a with
  | .ppu r => s.touchPpuRegister r
  | .apuStatus => { s with apu := s.apu.touchStatus }
  | .port1 =>
    { s with ports := { s.ports with shift1 := portShift s.ports.strobe s.ports.captured1 s.ports.shift1 } }
  | .port2 =>
    { s with ports := { s.ports with shift2 := portShift s.ports.strobe s.ports.captured2 s.ports.shift2 } }
  | .ram _ | .cartridge | .apuChannel _ | .oamDma | .unmapped => s

/-- `MemRead(a, 1)` (00_scope.md R6). -/
def State.memRead (a : Addr) (s : State) : Byte × State := (s.peek a, s.touch a)

/-- The copy loop of the OAM DMA from page `page`, the last `k` of its 256 bytes (20_memory.md R52). -/
def oamDmaCopy (page : Byte) : Nat → State → State
  | 0, s => s
  | k + 1, s =>
    let i : Byte := BitVec.ofNat 8 (255 - k)
    let (b, s) := s.memRead (joinBytes page i)
    oamDmaCopy page k { s with ppu := { s.ppu with oam := s.ppu.oam.write (s.ppu.oamAddr + i).toNat b } }

/-- A write of $4014 (20_memory.md R52): the whole copy, and the stall cycles it reports, drawn anew each time. -/
def State.oamDma (page : Byte) (s : State) : State × Nat :=
  ({ oamDmaCopy page 256 s with dmaDraws := s.dmaDraws + 1 }, Config.oamDmaStall s.dmaDraws)

/-- `MemWrite(a, 1, b)` (00_scope.md R6; 20_memory.md R45 to R52): the state after it and the stall cycles it reports. -/
def State.memWrite (a : Addr) (b : Byte) (s : State) : State × Nat :=
  match region a with
  | .ram k => ({ s with ram := s.ram.write k b }, 0)
  | .ppu r => (s.writePpuRegister r b, 0)
  | .apuChannel r => ({ s with apu := s.apu.writeChannel r b }, 0)
  | .oamDma => s.oamDma b
  | .apuStatus => ({ s with apu := s.apu.writeEnables b }, 0)
  | .port1 => ({ s with ports := s.ports.writeStrobe b }, 0)
  | .port2 => ({ s with apu := s.apu.writeFrame b }, 0)
  | .unmapped => (s, 0)
  | .cartridge => ({ s with cart := s.cart.writePrg a b }, 0)

/-- The addresses whose read has a side effect (20_memory.md R50). -/
def readSensitive (a : Addr) : Bool :=
  match region a with
  | .ppu r => r == 2#3 || r == 7#3
  | .apuStatus | .port1 | .port2 => true
  | .ram _ | .cartridge | .apuChannel _ | .oamDma | .unmapped => false

end Sys2Proof.Machine
end

