-- ==== Sys2Proof/Machine/ApuClock.lean ====
section
/-! DEFINITION. The APU's stepping with what reaches outside it: the sample DMA through the Bus and the two Irq requests
(62_apu.md R301, R325, R326, R328, R332). -/

namespace Sys2Proof.Machine

/-- `ClockFrameDivider()` (62_apu.md R333) with the request of the IRQ-flag step. -/
def State.clockFrameDivider (s : State) : State :=
  let r := s.apu.clockFrameDivider s.params.frameDividerPeriod
  { s with apu := r.1, pending := mergeIf r.2 .irq s.pending }

/-- `ClockTriangleTimer()` (62_apu.md R315). -/
def State.clockTriangle (s : State) : State := { s with apu := { s.apu with triangle := s.apu.triangle.clockTimer } }

/-- `FillBuffer()` (62_apu.md R326): an ordinary read of the CPU address space. -/
def State.fillBuffer (s : State) : State :=
  if s.apu.dmc.wantsByte then
    let (b, t) := s.memRead s.apu.dmc.curAddr
    let r := t.apu.dmc.takeByte b
    { t with apu := { t.apu with dmc := r.1 }, pending := mergeIf r.2 .irq t.pending }
  else s

/-- `ClockDmc()` (62_apu.md R325). -/
def State.clockDmc (s : State) : State :=
  let t := s.fillBuffer
  { t with apu := { t.apu with dmc := t.apu.dmc.clockOutput } }

/-- The pulse and noise timers and the downsampler (62_apu.md R301). -/
def State.clockTimers (s : State) : State :=
  { s with apu := (s.apu.clockTimers s.params.apuTiming).clockSampler s.params.sampleDivider }

/-- `ApuCycle()` (62_apu.md R301). -/
def State.apuCycle (s : State) : State := s.clockFrameDivider.clockTriangle.clockDmc.clockTimers

/-- `ApuStep(n)` (62_apu.md R301). -/
def State.apuStep : Nat → State → State
  | 0, s => s
  | n + 1, s => State.apuStep n s.apuCycle

end Sys2Proof.Machine
end

