-- ==== Sys2Proof/Machine/Flags.lean ====
section
/-! DEFINITION. The flag byte P and every flag computation of the instruction set (10_state.md R13 to R15;
42_arithmetic.md R130 to R134; 43_logic_shift.md R155). -/

namespace Sys2Proof.Machine

/-- Set bit `i` of a flag byte to `b` and leave the others (00_scope.md R6, `P.C <- b`). -/
def putFlag (i : Nat) (b : Bool) (p : Byte) : Byte :=
  if b then p ||| ((1#8) <<< i) else p &&& ~~~((1#8) <<< i)

/-- `P.N`, bit 7 (10_state.md R13). -/
def flagN (p : Byte) : Bool := p.getLsbD 7
/-- `P.V`, bit 6. -/
def flagV (p : Byte) : Bool := p.getLsbD 6
/-- `P.D`, bit 3. -/
def flagD (p : Byte) : Bool := p.getLsbD 3
/-- `P.I`, bit 2. -/
def flagI (p : Byte) : Bool := p.getLsbD 2
/-- `P.Z`, bit 1. -/
def flagZ (p : Byte) : Bool := p.getLsbD 1
/-- `P.C`, bit 0. -/
def flagC (p : Byte) : Bool := p.getLsbD 0

/-- `P.N <- b`. -/
def putN (b : Bool) (p : Byte) : Byte := putFlag 7 b p
/-- `P.V <- b`. -/
def putV (b : Bool) (p : Byte) : Byte := putFlag 6 b p
/-- `P.D <- b`. -/
def putD (b : Bool) (p : Byte) : Byte := putFlag 3 b p
/-- `P.I <- b`. -/
def putI (b : Bool) (p : Byte) : Byte := putFlag 2 b p
/-- `P.Z <- b`. -/
def putZ (b : Bool) (p : Byte) : Byte := putFlag 1 b p
/-- `P.C <- b`. -/
def putC (b : Bool) (p : Byte) : Byte := putFlag 0 b p

/-- `SetNZ(v)` on a flag byte (00_scope.md R7). -/
def putNZ (v : Byte) (p : Byte) : Byte := putZ (v == 0#8) (putN (v.getLsbD 7) p)

/-- `SetNZ(v)`. -/
def State.setNZ (v : Byte) (s : State) : State := { s with p := putNZ v s.p }

/-- `P.C <- b`. -/
def State.setC (b : Bool) (s : State) : State := { s with p := putC b s.p }

/-- The byte PHP and BRK push: `P | 0x30` (10_state.md R15). -/
def pushedByProgram (p : Byte) : Byte := p ||| 0x30#8

/-- The byte Nmi and Irq service push: `(P & 0xEF) | 0x20` (10_state.md R15). -/
def pushedByService (p : Byte) : Byte := (p &&& 0xEF#8) ||| 0x20#8

/-- What PLP and RTI load from a pulled byte: bits 5 and 4 of it are ignored (10_state.md R15). -/
def pulledFlags (m : Byte) : Byte := (m &&& 0xCF#8) ||| 0x20#8

/-- An ADC or SBC result with the four flags it gives. -/
structure AluResult where
  value : Byte
  carry : Bool
  overflow : Bool
  negative : Bool
  zero : Bool
  deriving DecidableEq, Repr

/-- `AddBinary` (42_arithmetic.md R130) with `SetNZ` of its result. -/
def addBinary (a m : Byte) (c : Bool) : AluResult :=
  let total := a.toNat + m.toNat + c.toNat
  let r : Byte := BitVec.ofNat 8 total
  { value := r
    carry := decide (total > 255)
    overflow := (~~~(a ^^^ m) &&& (a ^^^ r)).getLsbD 7
    negative := r.getLsbD 7
    zero := r == 0#8 }

/-- `AddDecimal` (42_arithmetic.md R131), the default of the optional decimal mode. -/
def addDecimal (a m : Byte) (c : Bool) : AluResult :=
  let low := a.toNat % 16 + m.toNat % 16 + c.toNat
  let low := if low ≥ 0x0A then (low + 0x06) % 16 + 0x10 else low
  let t := a.toNat / 16 * 16 + m.toNat / 16 * 16 + low
  let fixed := if t ≥ 0xA0 then t + 0x60 else t
  { value := BitVec.ofNat 8 fixed
    carry := decide (fixed ≥ 0x100)
    overflow := (~~~(a ^^^ m) &&& (a ^^^ BitVec.ofNat 8 t)).getLsbD 7
    negative := t.testBit 7
    zero := decide ((a.toNat + m.toNat + c.toNat) % 256 = 0) }

/-- `SubDecimal` (42_arithmetic.md R131), the default of the optional decimal mode. -/
def subDecimal (a m : Byte) (c : Bool) : AluResult :=
  let borrow : Int := 1 - (c.toNat : Int)
  let t : Int := (a.toNat : Int) - m.toNat - borrow
  let low : Int := (a.toNat % 16 : Nat) - ((m.toNat % 16 : Nat) : Int) - borrow
  let low : Int := if low < 0 then (low - 0x06) % 16 - 0x10 else low
  let r : Int := (a.toNat / 16 * 16 : Nat) - ((m.toNat / 16 * 16 : Nat) : Int) + low
  let r : Int := if r < 0 then r - 0x60 else r
  let binary : Byte := BitVec.ofInt 8 t
  { value := BitVec.ofInt 8 r
    carry := decide (0 ≤ t)
    overflow := ((a ^^^ m) &&& (a ^^^ binary)).getLsbD 7
    negative := binary.getLsbD 7
    zero := binary == 0#8 }

/-- A tuple of 42_arithmetic.md R131 as an `AluResult`. -/
def AluResult.ofTuple (r : Config.DecimalResult) : AluResult where
  value := r.1
  carry := r.2.1
  overflow := r.2.2.1
  negative := r.2.2.2.1
  zero := r.2.2.2.2

/-- The `AddDecimal` the machine was constructed with (42_arithmetic.md R131). -/
def decimalSum (q : Config.Params) (a m : Byte) (c : Bool) : AluResult :=
  match q.decimalFunctions with
  | .nmos => addDecimal a m c
  | .unspecified => .ofTuple (Config.addDecimalUnspecified a m c)

/-- The `SubDecimal` the machine was constructed with (42_arithmetic.md R131). -/
def decimalDifference (q : Config.Params) (a m : Byte) (c : Bool) : AluResult :=
  match q.decimalFunctions with
  | .nmos => subDecimal a m c
  | .unspecified => .ofTuple (Config.subDecimalUnspecified a m c)

/-- Write the four flags of an ADC or SBC (42_arithmetic.md R132, R133). -/
def putAlu (r : AluResult) (p : Byte) : Byte :=
  putZ r.zero (putN r.negative (putV r.overflow (putC r.carry p)))

/-- `Adc(m)` (42_arithmetic.md R132). -/
def State.adc (m : Byte) (s : State) : State :=
  let r :=
    if s.params.decimalEnable && flagD s.p then decimalSum s.params s.a m (flagC s.p)
    else addBinary s.a m (flagC s.p)
  { s with a := r.value, p := putAlu r s.p }

/-- `Sbc(m)` (42_arithmetic.md R133): in binary, add the complement. -/
def State.sbc (m : Byte) (s : State) : State :=
  let r :=
    if s.params.decimalEnable && flagD s.p then decimalDifference s.params s.a m (flagC s.p)
    else addBinary s.a (m ^^^ 0xFF#8) (flagC s.p)
  { s with a := r.value, p := putAlu r s.p }

/-- `Compare(r, m)` (42_arithmetic.md R134). -/
def State.compare (r m : Byte) (s : State) : State :=
  { s with p := putNZ (r - m) (putC (decide (m.toNat ≤ r.toNat)) s.p) }

/-- The result and the new carry of a shift or rotate by one (43_logic_shift.md R155). -/
abbrev Shift := Byte → Bool → Byte × Bool

/-- `Asl`. -/
def shiftAsl : Shift := fun v _ => (v <<< 1, v.getLsbD 7)
/-- `Lsr`. -/
def shiftLsr : Shift := fun v _ => (v >>> 1, v.getLsbD 0)
/-- `Rol`. -/
def shiftRol : Shift := fun v c => ((v <<< 1) ||| bitOf c, v.getLsbD 7)
/-- `Ror`. -/
def shiftRor : Shift := fun v c => ((v >>> 1) ||| (bitOf c <<< 7), v.getLsbD 0)

end Sys2Proof.Machine
end

