-- ==== Sys2Proof/Machine/Ops.lean ====
section
/-! DEFINITION. The CPU's named operations over memory and registers: cycle accounting, stores, the stack, reading a
vector, taking an exception and returning from one (00_scope.md R7; 60_exceptions.md R238, R242; 45_flags_system.md R204,
R205; 70_reset_and_hazards.md R390). -/

namespace Sys2Proof.Machine

/-- `cyc <- cyc + n` (10_state.md R17). -/
def State.charge (n : Nat) (s : State) : State := { s with cyc := s.cyc + n }

/-- `stall <- MemWrite(a, 1, b); cyc <- cyc + stall` (20_memory.md R52). -/
def State.store (a : Addr) (b : Byte) (s : State) : State := (s.memWrite a b).1.charge (s.memWrite a b).2

/-- `Fetch8()` (00_scope.md R7). -/
def State.fetch8 (s : State) : Byte × State :=
  let (b, t) := s.memRead s.pc
  (b, { t with pc := s.pc + 1#16 })

/-- The stack location S names: `0x0100 + S` (10_state.md R11). -/
def stackAddress (sp : Byte) : Addr := joinBytes 0x01#8 sp

/-- `Push(v)` (00_scope.md R7). -/
def State.push (v : Byte) (s : State) : State :=
  let t := s.store (stackAddress s.sp) v
  { t with sp := s.sp - 1#8 }

/-- `Pull()` (00_scope.md R7). -/
def State.pull (s : State) : Byte × State := State.memRead (stackAddress (s.sp + 1#8)) { s with sp := s.sp + 1#8 }

/-- Push a 16-bit value, high byte first ("PC high/low"). -/
def State.pushAddr (v : Addr) (s : State) : State := (s.push (highByte v)).push (lowByte v)

/-- Pull a 16-bit value, low byte first. -/
def State.pullAddr (s : State) : Addr × State :=
  let (lo, s) := s.pull
  let (hi, s) := s.pull
  (joinBytes hi lo, s)

/-- `Read16(a)`: low byte first (00_scope.md R7), as the vectors are read (20_memory.md R53). -/
def State.read16 (a : Addr) (s : State) : Addr × State :=
  let (lo, s) := s.memRead a
  let (hi, s) := s.memRead (a + 1#16)
  (joinBytes hi lo, s)

/-- `PC <- Read16(a)`. -/
def State.jumpThrough (a : Addr) (s : State) : State :=
  let (target, s) := s.read16 a
  { s with pc := target }

/-- TAKING AN EXCEPTION, shared by BRK, Nmi and Irq (60_exceptions.md R238, 45_flags_system.md R204): push the return
address high byte first, push the given copy of P, set I, load PC from the vector. -/
def State.enter (vector ret : Addr) (pushed : Byte) (s : State) : State :=
  let s := (s.pushAddr ret).push pushed
  State.jumpThrough vector { s with p := putI true s.p }

/-- RETURNING FROM AN EXCEPTION (45_flags_system.md R205; 60_exceptions.md R242): pull P, then PC low, then PC high. -/
def State.leave (s : State) : State :=
  let (m, s) := s.pull
  let (target, s) := State.pullAddr { s with p := pulledFlags m }
  { s with pc := target }

/-- `ServiceInterrupt(vec)` (60_exceptions.md R238). -/
def State.serviceInterrupt (vector : Addr) (s : State) : State :=
  { s.enter vector s.pc (pushedByService s.p) with cyc := Config.serviceCycles }

/-- `ServiceReset()` (70_reset_and_hazards.md R390): the `RESET_*` parameters, no push, no memory written. -/
def State.serviceReset (s : State) : State :=
  let q := s.params
  { State.jumpThrough Config.vectorReset
      { s with a := q.resetA, x := q.resetX, y := q.resetY, sp := q.resetS, p := q.resetP } with
    cyc := q.resetCycles }

end Sys2Proof.Machine
end

