-- ==== Sys2Proof/Machine/Operands.lean ====
section
/-! DEFINITION. The operand forms of the instruction set (30_encoding.md R73 to R84) and the three ways an operation uses
a memory operand (30_encoding.md R91, R92). The operand bytes themselves were fetched by the step; the pointers of the
indirect modes lie in page 0, which is RAM, so reading one has no side effect (20_memory.md R46). -/

namespace Sys2Proof.Machine

/-- An operand in memory: the eight modes that yield an effective address. -/
inductive MemOperand where
  /-- zero page (R76) -/
  | zp (d : Byte)
  /-- zero page,X (R77) -/
  | zpx (d : Byte)
  /-- zero page,Y (R77) -/
  | zpy (d : Byte)
  /-- absolute (R78) -/
  | abs (a : Addr)
  /-- absolute,X (R79) -/
  | abx (a : Addr)
  /-- absolute,Y (R79) -/
  | aby (a : Addr)
  /-- (indirect,X) (R81) -/
  | izx (d : Byte)
  /-- (indirect),Y (R82) -/
  | izy (d : Byte)
  deriving DecidableEq, Repr

/-- An operand that is read: the byte after the opcode (R75) or a byte of memory. -/
inductive Source where
  | imm (d : Byte)
  | mem (o : MemOperand)
  deriving DecidableEq, Repr

/-- The 16-bit pointer at location `d` of page 0: its high byte does not carry into page 1 (20_memory.md R43). A
read of page 0 changes nothing (DEDUCED, log entry 22). -/
def State.zeroPagePointer (d : Byte) (s : State) : Addr :=
  joinBytes (s.peek (zeroExtend16 (d + 1#8))) (s.peek (zeroExtend16 d))

/-- The unindexed base an index register is added to, in the modes that can cross a page. -/
def MemOperand.base (s : State) : MemOperand → Addr
  | .zp d | .zpx d | .zpy d => zeroExtend16 d
  | .abs a | .abx a | .aby a => a
  | .izx d => s.zeroPagePointer (d + s.x)
  | .izy d => s.zeroPagePointer d

/-- The effective address `ea` (R76 to R82). -/
def MemOperand.address (o : MemOperand) (s : State) : Addr :=
  match o with
  | .zp d => zeroExtend16 d
  | .zpx d => zeroExtend16 (d + s.x)
  | .zpy d => zeroExtend16 (d + s.y)
  | .abs a => a
  | .abx a => a + zeroExtend16 s.x
  | .aby a => a + zeroExtend16 s.y
  | .izx d => s.zeroPagePointer (d + s.x)
  | .izy d => s.zeroPagePointer d + zeroExtend16 s.y

/-- `crossed` (R79, R82): indexing moved the address to another page; only three modes can. -/
def MemOperand.crossed (o : MemOperand) (s : State) : Bool :=
  match o with
  | .abx _ | .aby _ | .izy _ => highByte (o.address s) != highByte (o.base s)
  | .zp _ | .zpx _ | .zpy _ | .abs _ | .izx _ => false

/-- The page-crossing cycle of a reading operation (R91). -/
def MemOperand.penalty (o : MemOperand) (s : State) : Nat := if o.crossed s then 1 else 0

/-- Kind "read" (R92): the operand byte and the state after reading it, with the base cycles and, in memory, the
page-crossing cycle charged. The byte of an immediate operand was read by the step. -/
def State.readOperand (o : Source) (base : Nat) (s : State) : Byte × State :=
  match o with
  | .imm d => (d, s.charge base)
  | .mem o => (s.charge (base + o.penalty s)).memRead (o.address s)

/-- Kind "write" (R92): one write, no read; never the page-crossing cycle (R91). -/
def State.writeOperand (o : MemOperand) (base : Nat) (v : Byte) (s : State) : State :=
  (s.charge base).store (o.address s) v

/-- Kind "read-modify-write" (R92): one read, then one write at the same address; never the page-crossing cycle. The
byte read is given with the state after the write. -/
def State.modifyOperand (o : MemOperand) (base : Nat) (f : Byte → Byte) (s : State) : Byte × State :=
  let a := o.address s
  let (m, t) := (s.charge base).memRead a
  (m, t.store a (f m))

/-- `Operand_rel()` (R84) once the offset byte is fetched: the target, from PC at the next instruction. -/
def branchTarget (d : Byte) (s : State) : Addr := s.pc + signExtend16 d

/-- `crossed` of `Operand_rel()` (R84): the target's page against the page of the next instruction. -/
def branchCrossed (d : Byte) (s : State) : Bool := highByte (branchTarget d s) != highByte s.pc

/-- `Operand_ind()` (R80) once the operand bytes are fetched: the pointer's high byte is read without a carry into the
pointer's page. -/
def State.readIndirect (p : Addr) (s : State) : Addr × State :=
  let (lo, s) := s.memRead p
  let (hi, s) := s.memRead (joinBytes (highByte p) (lowByte p + 1#8))
  (joinBytes hi lo, s)

end Sys2Proof.Machine
end

