-- ==== Sys2Proof/Syntax.lean ====
section
/-! DEFINITION. The instruction set as syntax: one constructor for each of the 231 assigned rows of the 256-entry opcode
table (30_encoding.md R85), and one for the 25 unassigned bytes, which the spec names `Unassigned(op)` (R83). The operand
bytes of formats F2 and F3 (R70) are the constructors' arguments: `d` is the byte after the opcode, `a` the 16-bit
address `{hi, lo}`. A name is the mnemonic followed by the mode key of R73; where an undocumented row repeats a mnemonic
and mode, its opcode byte is added. -/

namespace Sys2Proof

/-- The instructions. -/
inductive Instr where
  -- load, store and register transfer (40_load_store_transfer.md)
  /-- `A1` LDA (zp,X) (R101) -/
  | ldaIzx (d : Byte)
  /-- `A5` LDA zp (R101) -/
  | ldaZp (d : Byte)
  /-- `A9` LDA # (R101) -/
  | ldaImm (d : Byte)
  /-- `AD` LDA abs (R101) -/
  | ldaAbs (a : Addr)
  /-- `B1` LDA (zp),Y (R101) -/
  | ldaIzy (d : Byte)
  /-- `B5` LDA zp,X (R101) -/
  | ldaZpx (d : Byte)
  /-- `B9` LDA abs,Y (R101) -/
  | ldaAby (a : Addr)
  /-- `BD` LDA abs,X (R101) -/
  | ldaAbx (a : Addr)
  /-- `A2` LDX # (R102) -/
  | ldxImm (d : Byte)
  /-- `A6` LDX zp (R102) -/
  | ldxZp (d : Byte)
  /-- `AE` LDX abs (R102) -/
  | ldxAbs (a : Addr)
  /-- `B6` LDX zp,Y (R102) -/
  | ldxZpy (d : Byte)
  /-- `BE` LDX abs,Y (R102) -/
  | ldxAby (a : Addr)
  /-- `A0` LDY # (R103) -/
  | ldyImm (d : Byte)
  /-- `A4` LDY zp (R103) -/
  | ldyZp (d : Byte)
  /-- `AC` LDY abs (R103) -/
  | ldyAbs (a : Addr)
  /-- `B4` LDY zp,X (R103) -/
  | ldyZpx (d : Byte)
  /-- `BC` LDY abs,X (R103) -/
  | ldyAbx (a : Addr)
  /-- `81` STA (zp,X) (R104) -/
  | staIzx (d : Byte)
  /-- `85` STA zp (R104) -/
  | staZp (d : Byte)
  /-- `8D` STA abs (R104) -/
  | staAbs (a : Addr)
  /-- `91` STA (zp),Y (R104) -/
  | staIzy (d : Byte)
  /-- `95` STA zp,X (R104) -/
  | staZpx (d : Byte)
  /-- `99` STA abs,Y (R104) -/
  | staAby (a : Addr)
  /-- `9D` STA abs,X (R104) -/
  | staAbx (a : Addr)
  /-- `86` STX zp (R105) -/
  | stxZp (d : Byte)
  /-- `8E` STX abs (R105) -/
  | stxAbs (a : Addr)
  /-- `96` STX zp,Y (R105) -/
  | stxZpy (d : Byte)
  /-- `84` STY zp (R106) -/
  | styZp (d : Byte)
  /-- `8C` STY abs (R106) -/
  | styAbs (a : Addr)
  /-- `94` STY zp,X (R106) -/
  | styZpx (d : Byte)
  /-- `AA` TAX (R107) -/
  | tax
  /-- `A8` TAY (R108) -/
  | tay
  /-- `8A` TXA (R109) -/
  | txa
  /-- `98` TYA (R110) -/
  | tya
  /-- `BA` TSX (R111) -/
  | tsx
  /-- `9A` TXS (R112) -/
  | txs
  -- stack (41_stack.md)
  /-- `48` PHA (R121) -/
  | pha
  /-- `08` PHP (R122) -/
  | php
  /-- `68` PLA (R123) -/
  | pla
  /-- `28` PLP (R124) -/
  | plp
  -- arithmetic, compare, increment, decrement (42_arithmetic.md)
  /-- `61` ADC (zp,X) (R132) -/
  | adcIzx (d : Byte)
  /-- `65` ADC zp (R132) -/
  | adcZp (d : Byte)
  /-- `69` ADC # (R132) -/
  | adcImm (d : Byte)
  /-- `6D` ADC abs (R132) -/
  | adcAbs (a : Addr)
  /-- `71` ADC (zp),Y (R132) -/
  | adcIzy (d : Byte)
  /-- `75` ADC zp,X (R132) -/
  | adcZpx (d : Byte)
  /-- `79` ADC abs,Y (R132) -/
  | adcAby (a : Addr)
  /-- `7D` ADC abs,X (R132) -/
  | adcAbx (a : Addr)
  /-- `E1` SBC (zp,X) (R133) -/
  | sbcIzx (d : Byte)
  /-- `E5` SBC zp (R133) -/
  | sbcZp (d : Byte)
  /-- `E9` SBC # (R133) -/
  | sbcImm (d : Byte)
  /-- `ED` SBC abs (R133) -/
  | sbcAbs (a : Addr)
  /-- `F1` SBC (zp),Y (R133) -/
  | sbcIzy (d : Byte)
  /-- `F5` SBC zp,X (R133) -/
  | sbcZpx (d : Byte)
  /-- `F9` SBC abs,Y (R133) -/
  | sbcAby (a : Addr)
  /-- `FD` SBC abs,X (R133) -/
  | sbcAbx (a : Addr)
  /-- `C1` CMP (zp,X) (R135) -/
  | cmpIzx (d : Byte)
  /-- `C5` CMP zp (R135) -/
  | cmpZp (d : Byte)
  /-- `C9` CMP # (R135) -/
  | cmpImm (d : Byte)
  /-- `CD` CMP abs (R135) -/
  | cmpAbs (a : Addr)
  /-- `D1` CMP (zp),Y (R135) -/
  | cmpIzy (d : Byte)
  /-- `D5` CMP zp,X (R135) -/
  | cmpZpx (d : Byte)
  /-- `D9` CMP abs,Y (R135) -/
  | cmpAby (a : Addr)
  /-- `DD` CMP abs,X (R135) -/
  | cmpAbx (a : Addr)
  /-- `E0` CPX # (R136) -/
  | cpxImm (d : Byte)
  /-- `E4` CPX zp (R136) -/
  | cpxZp (d : Byte)
  /-- `EC` CPX abs (R136) -/
  | cpxAbs (a : Addr)
  /-- `C0` CPY # (R137) -/
  | cpyImm (d : Byte)
  /-- `C4` CPY zp (R137) -/
  | cpyZp (d : Byte)
  /-- `CC` CPY abs (R137) -/
  | cpyAbs (a : Addr)
  /-- `E6` INC zp (R138) -/
  | incZp (d : Byte)
  /-- `EE` INC abs (R138) -/
  | incAbs (a : Addr)
  /-- `F6` INC zp,X (R138) -/
  | incZpx (d : Byte)
  /-- `FE` INC abs,X (R138) -/
  | incAbx (a : Addr)
  /-- `E8` INX (R139) -/
  | inx
  /-- `C8` INY (R140) -/
  | iny
  /-- `C6` DEC zp (R141) -/
  | decZp (d : Byte)
  /-- `CE` DEC abs (R141) -/
  | decAbs (a : Addr)
  /-- `D6` DEC zp,X (R141) -/
  | decZpx (d : Byte)
  /-- `DE` DEC abs,X (R141) -/
  | decAbx (a : Addr)
  /-- `CA` DEX (R142) -/
  | dex
  /-- `88` DEY (R143) -/
  | dey
  -- logic, bit test, shift, rotate (43_logic_shift.md)
  /-- `21` AND (zp,X) (R151) -/
  | andIzx (d : Byte)
  /-- `25` AND zp (R151) -/
  | andZp (d : Byte)
  /-- `29` AND # (R151) -/
  | andImm (d : Byte)
  /-- `2D` AND abs (R151) -/
  | andAbs (a : Addr)
  /-- `31` AND (zp),Y (R151) -/
  | andIzy (d : Byte)
  /-- `35` AND zp,X (R151) -/
  | andZpx (d : Byte)
  /-- `39` AND abs,Y (R151) -/
  | andAby (a : Addr)
  /-- `3D` AND abs,X (R151) -/
  | andAbx (a : Addr)
  /-- `01` ORA (zp,X) (R152) -/
  | oraIzx (d : Byte)
  /-- `05` ORA zp (R152) -/
  | oraZp (d : Byte)
  /-- `09` ORA # (R152) -/
  | oraImm (d : Byte)
  /-- `0D` ORA abs (R152) -/
  | oraAbs (a : Addr)
  /-- `11` ORA (zp),Y (R152) -/
  | oraIzy (d : Byte)
  /-- `15` ORA zp,X (R152) -/
  | oraZpx (d : Byte)
  /-- `19` ORA abs,Y (R152) -/
  | oraAby (a : Addr)
  /-- `1D` ORA abs,X (R152) -/
  | oraAbx (a : Addr)
  /-- `41` EOR (zp,X) (R153) -/
  | eorIzx (d : Byte)
  /-- `45` EOR zp (R153) -/
  | eorZp (d : Byte)
  /-- `49` EOR # (R153) -/
  | eorImm (d : Byte)
  /-- `4D` EOR abs (R153) -/
  | eorAbs (a : Addr)
  /-- `51` EOR (zp),Y (R153) -/
  | eorIzy (d : Byte)
  /-- `55` EOR zp,X (R153) -/
  | eorZpx (d : Byte)
  /-- `59` EOR abs,Y (R153) -/
  | eorAby (a : Addr)
  /-- `5D` EOR abs,X (R153) -/
  | eorAbx (a : Addr)
  /-- `24` BIT zp (R154) -/
  | bitZp (d : Byte)
  /-- `2C` BIT abs (R154) -/
  | bitAbs (a : Addr)
  /-- `06` ASL zp (R156) -/
  | aslZp (d : Byte)
  /-- `0A` ASL A (R156) -/
  | aslAcc
  /-- `0E` ASL abs (R156) -/
  | aslAbs (a : Addr)
  /-- `16` ASL zp,X (R156) -/
  | aslZpx (d : Byte)
  /-- `1E` ASL abs,X (R156) -/
  | aslAbx (a : Addr)
  /-- `46` LSR zp (R157) -/
  | lsrZp (d : Byte)
  /-- `4A` LSR A (R157) -/
  | lsrAcc
  /-- `4E` LSR abs (R157) -/
  | lsrAbs (a : Addr)
  /-- `56` LSR zp,X (R157) -/
  | lsrZpx (d : Byte)
  /-- `5E` LSR abs,X (R157) -/
  | lsrAbx (a : Addr)
  /-- `26` ROL zp (R158) -/
  | rolZp (d : Byte)
  /-- `2A` ROL A (R158) -/
  | rolAcc
  /-- `2E` ROL abs (R158) -/
  | rolAbs (a : Addr)
  /-- `36` ROL zp,X (R158) -/
  | rolZpx (d : Byte)
  /-- `3E` ROL abs,X (R158) -/
  | rolAbx (a : Addr)
  /-- `66` ROR zp (R159) -/
  | rorZp (d : Byte)
  /-- `6A` ROR A (R159) -/
  | rorAcc
  /-- `6E` ROR abs (R159) -/
  | rorAbs (a : Addr)
  /-- `76` ROR zp,X (R159) -/
  | rorZpx (d : Byte)
  /-- `7E` ROR abs,X (R159) -/
  | rorAbx (a : Addr)
  -- branches, jumps, call and return (44_control_transfer.md)
  /-- `10` BPL rel (R171) -/
  | bpl (d : Byte)
  /-- `30` BMI rel (R172) -/
  | bmi (d : Byte)
  /-- `50` BVC rel (R173) -/
  | bvc (d : Byte)
  /-- `70` BVS rel (R174) -/
  | bvs (d : Byte)
  /-- `90` BCC rel (R175) -/
  | bcc (d : Byte)
  /-- `B0` BCS rel (R176) -/
  | bcs (d : Byte)
  /-- `D0` BNE rel (R177) -/
  | bne (d : Byte)
  /-- `F0` BEQ rel (R178) -/
  | beq (d : Byte)
  /-- `4C` JMP abs (R179) -/
  | jmpAbs (a : Addr)
  /-- `20` JSR abs (R180) -/
  | jsr (a : Addr)
  /-- `6C` JMP (abs) (R181) -/
  | jmpInd (a : Addr)
  /-- `60` RTS (R182) -/
  | rts
  -- flags, NOP, BRK, RTI (45_flags_system.md)
  /-- `18` CLC (R191) -/
  | clc
  /-- `38` SEC (R192) -/
  | sec
  /-- `58` CLI (R193) -/
  | cli
  /-- `78` SEI (R194) -/
  | sei
  /-- `B8` CLV (R195) -/
  | clv
  /-- `D8` CLD (R196) -/
  | cld
  /-- `F8` SED (R197) -/
  | sed
  /-- `EA` NOP (R198) -/
  | nop
  /-- `00` BRK (R204) -/
  | brk
  /-- `40` RTI (R205) -/
  | rti
  -- undocumented (46_undocumented.md)
  /-- `04` *DOP zp (R211) -/
  | dopZp04 (d : Byte)
  /-- `14` *DOP zp,X (R211) -/
  | dopZpx14 (d : Byte)
  /-- `34` *DOP zp,X (R211) -/
  | dopZpx34 (d : Byte)
  /-- `44` *DOP zp (R211) -/
  | dopZp44 (d : Byte)
  /-- `54` *DOP zp,X (R211) -/
  | dopZpx54 (d : Byte)
  /-- `64` *DOP zp (R211) -/
  | dopZp64 (d : Byte)
  /-- `74` *DOP zp,X (R211) -/
  | dopZpx74 (d : Byte)
  /-- `80` *DOP # (R211) -/
  | dopImm80 (d : Byte)
  /-- `82` *DOP # (R211) -/
  | dopImm82 (d : Byte)
  /-- `89` *DOP # (R211) -/
  | dopImm89 (d : Byte)
  /-- `C2` *DOP # (R211) -/
  | dopImmC2 (d : Byte)
  /-- `D4` *DOP zp,X (R211) -/
  | dopZpxD4 (d : Byte)
  /-- `E2` *DOP # (R211) -/
  | dopImmE2 (d : Byte)
  /-- `F4` *DOP zp,X (R211) -/
  | dopZpxF4 (d : Byte)
  /-- `0C` *TOP abs (R212) -/
  | topAbs (a : Addr)
  /-- `1C` *TOP abs,X (R212) -/
  | topAbx1C (a : Addr)
  /-- `3C` *TOP abs,X (R212) -/
  | topAbx3C (a : Addr)
  /-- `5C` *TOP abs,X (R212) -/
  | topAbx5C (a : Addr)
  /-- `7C` *TOP abs,X (R212) -/
  | topAbx7C (a : Addr)
  /-- `DC` *TOP abs,X (R212) -/
  | topAbxDC (a : Addr)
  /-- `FC` *TOP abs,X (R212) -/
  | topAbxFC (a : Addr)
  /-- `A3` *LAX (zp,X) (R213) -/
  | laxIzx (d : Byte)
  /-- `A7` *LAX zp (R213) -/
  | laxZp (d : Byte)
  /-- `AF` *LAX abs (R213) -/
  | laxAbs (a : Addr)
  /-- `B3` *LAX (zp),Y (R213) -/
  | laxIzy (d : Byte)
  /-- `B7` *LAX zp,Y (R213) -/
  | laxZpy (d : Byte)
  /-- `BF` *LAX abs,Y (R213) -/
  | laxAby (a : Addr)
  /-- `83` *AAX (zp,X) (R214) -/
  | aaxIzx (d : Byte)
  /-- `87` *AAX zp (R214) -/
  | aaxZp (d : Byte)
  /-- `8F` *AAX abs (R214) -/
  | aaxAbs (a : Addr)
  /-- `97` *AAX zp,Y (R214) -/
  | aaxZpy (d : Byte)
  /-- `03` *SLO (zp,X) (R215) -/
  | sloIzx (d : Byte)
  /-- `07` *SLO zp (R215) -/
  | sloZp (d : Byte)
  /-- `0F` *SLO abs (R215) -/
  | sloAbs (a : Addr)
  /-- `13` *SLO (zp),Y (R215) -/
  | sloIzy (d : Byte)
  /-- `17` *SLO zp,X (R215) -/
  | sloZpx (d : Byte)
  /-- `1B` *SLO abs,Y (R215) -/
  | sloAby (a : Addr)
  /-- `1F` *SLO abs,X (R215) -/
  | sloAbx (a : Addr)
  /-- `23` *RLA (zp,X) (R216) -/
  | rlaIzx (d : Byte)
  /-- `27` *RLA zp (R216) -/
  | rlaZp (d : Byte)
  /-- `2F` *RLA abs (R216) -/
  | rlaAbs (a : Addr)
  /-- `33` *RLA (zp),Y (R216) -/
  | rlaIzy (d : Byte)
  /-- `37` *RLA zp,X (R216) -/
  | rlaZpx (d : Byte)
  /-- `3B` *RLA abs,Y (R216) -/
  | rlaAby (a : Addr)
  /-- `3F` *RLA abs,X (R216) -/
  | rlaAbx (a : Addr)
  /-- `43` *SRE (zp,X) (R217) -/
  | sreIzx (d : Byte)
  /-- `47` *SRE zp (R217) -/
  | sreZp (d : Byte)
  /-- `4F` *SRE abs (R217) -/
  | sreAbs (a : Addr)
  /-- `53` *SRE (zp),Y (R217) -/
  | sreIzy (d : Byte)
  /-- `57` *SRE zp,X (R217) -/
  | sreZpx (d : Byte)
  /-- `5B` *SRE abs,Y (R217) -/
  | sreAby (a : Addr)
  /-- `5F` *SRE abs,X (R217) -/
  | sreAbx (a : Addr)
  /-- `63` *RRA (zp,X) (R218) -/
  | rraIzx (d : Byte)
  /-- `67` *RRA zp (R218) -/
  | rraZp (d : Byte)
  /-- `6F` *RRA abs (R218) -/
  | rraAbs (a : Addr)
  /-- `73` *RRA (zp),Y (R218) -/
  | rraIzy (d : Byte)
  /-- `77` *RRA zp,X (R218) -/
  | rraZpx (d : Byte)
  /-- `7B` *RRA abs,Y (R218) -/
  | rraAby (a : Addr)
  /-- `7F` *RRA abs,X (R218) -/
  | rraAbx (a : Addr)
  /-- `C3` *DCP (zp,X) (R219) -/
  | dcpIzx (d : Byte)
  /-- `C7` *DCP zp (R219) -/
  | dcpZp (d : Byte)
  /-- `CF` *DCP abs (R219) -/
  | dcpAbs (a : Addr)
  /-- `D3` *DCP (zp),Y (R219) -/
  | dcpIzy (d : Byte)
  /-- `D7` *DCP zp,X (R219) -/
  | dcpZpx (d : Byte)
  /-- `DB` *DCP abs,Y (R219) -/
  | dcpAby (a : Addr)
  /-- `DF` *DCP abs,X (R219) -/
  | dcpAbx (a : Addr)
  /-- `E3` *ISC (zp,X) (R220) -/
  | iscIzx (d : Byte)
  /-- `E7` *ISC zp (R220) -/
  | iscZp (d : Byte)
  /-- `EF` *ISC abs (R220) -/
  | iscAbs (a : Addr)
  /-- `F3` *ISC (zp),Y (R220) -/
  | iscIzy (d : Byte)
  /-- `F7` *ISC zp,X (R220) -/
  | iscZpx (d : Byte)
  /-- `FB` *ISC abs,Y (R220) -/
  | iscAby (a : Addr)
  /-- `FF` *ISC abs,X (R220) -/
  | iscAbx (a : Addr)
  /-- `1A` *NOP (R221) -/
  | nop1A
  /-- `3A` *NOP (R221) -/
  | nop3A
  /-- `5A` *NOP (R221) -/
  | nop5A
  /-- `7A` *NOP (R221) -/
  | nop7A
  /-- `DA` *NOP (R221) -/
  | nopDA
  /-- `FA` *NOP (R221) -/
  | nopFA
  /-- `EB` *SBC # (R222) -/
  | sbcImmEB (d : Byte)
  -- the 25 bytes without a meaning
  /-- `Unassigned(op)` (R83) -/
  | unassigned (op : Byte)
  deriving DecidableEq, Repr

end Sys2Proof
end

