-- ==== Sys2Proof/Machine/Arithmetic.lean ====
section
/-! DEFINITION. Arithmetic, compare, increment and decrement instructions (42_arithmetic.md R130 to R144). -/

namespace Sys2Proof.Machine

/-- `m <- MemRead(ea, 1); Adc(m)` (R132). -/
def State.adcOperand (o : Source) (base : Nat) (s : State) : State :=
  let (m, s) := s.readOperand o base
  s.adc m

/-- `m <- MemRead(ea, 1); Sbc(m)` (R133). -/
def State.sbcOperand (o : Source) (base : Nat) (s : State) : State :=
  let (m, s) := s.readOperand o base
  s.sbc m

/-- `m <- MemRead(ea, 1); Compare(r, m)` for a register value `r` (R134 to R137). -/
def State.compareOperand (r : Byte) (o : Source) (base : Nat) (s : State) : State :=
  let (m, s) := s.readOperand o base
  s.compare r m

/-- Add `delta` to a byte of memory and set N and Z (R138, R141). -/
def State.bumpOperand (delta : Byte) (o : MemOperand) (base : Nat) (s : State) : State :=
  let (m, s) := s.modifyOperand o base fun m => m + delta
  s.setNZ (m + delta)

/-- `61` ADC (zp,X), 6 cycles (R132). -/
def execAdcIzx (d : Byte) (s : State) : Result := .next (s.adcOperand (.mem (.izx d)) 6)

/-- `65` ADC zp, 3 cycles (R132). -/
def execAdcZp (d : Byte) (s : State) : Result := .next (s.adcOperand (.mem (.zp d)) 3)

/-- `69` ADC #, 2 cycles (R132). -/
def execAdcImm (d : Byte) (s : State) : Result := .next (s.adcOperand (.imm d) 2)

/-- `6D` ADC abs, 4 cycles (R132). -/
def execAdcAbs (a : Addr) (s : State) : Result := .next (s.adcOperand (.mem (.abs a)) 4)

/-- `71` ADC (zp),Y, 5+p cycles (R132). -/
def execAdcIzy (d : Byte) (s : State) : Result := .next (s.adcOperand (.mem (.izy d)) 5)

/-- `75` ADC zp,X, 4 cycles (R132). -/
def execAdcZpx (d : Byte) (s : State) : Result := .next (s.adcOperand (.mem (.zpx d)) 4)

/-- `79` ADC abs,Y, 4+p cycles (R132). -/
def execAdcAby (a : Addr) (s : State) : Result := .next (s.adcOperand (.mem (.aby a)) 4)

/-- `7D` ADC abs,X, 4+p cycles (R132). -/
def execAdcAbx (a : Addr) (s : State) : Result := .next (s.adcOperand (.mem (.abx a)) 4)

/-- `E1` SBC (zp,X), 6 cycles (R133). -/
def execSbcIzx (d : Byte) (s : State) : Result := .next (s.sbcOperand (.mem (.izx d)) 6)

/-- `E5` SBC zp, 3 cycles (R133). -/
def execSbcZp (d : Byte) (s : State) : Result := .next (s.sbcOperand (.mem (.zp d)) 3)

/-- `E9` SBC #, 2 cycles (R133). -/
def execSbcImm (d : Byte) (s : State) : Result := .next (s.sbcOperand (.imm d) 2)

/-- `ED` SBC abs, 4 cycles (R133). -/
def execSbcAbs (a : Addr) (s : State) : Result := .next (s.sbcOperand (.mem (.abs a)) 4)

/-- `F1` SBC (zp),Y, 5+p cycles (R133). -/
def execSbcIzy (d : Byte) (s : State) : Result := .next (s.sbcOperand (.mem (.izy d)) 5)

/-- `F5` SBC zp,X, 4 cycles (R133). -/
def execSbcZpx (d : Byte) (s : State) : Result := .next (s.sbcOperand (.mem (.zpx d)) 4)

/-- `F9` SBC abs,Y, 4+p cycles (R133). -/
def execSbcAby (a : Addr) (s : State) : Result := .next (s.sbcOperand (.mem (.aby a)) 4)

/-- `FD` SBC abs,X, 4+p cycles (R133). -/
def execSbcAbx (a : Addr) (s : State) : Result := .next (s.sbcOperand (.mem (.abx a)) 4)

/-- `C1` CMP (zp,X), 6 cycles (R135). -/
def execCmpIzx (d : Byte) (s : State) : Result := .next (s.compareOperand s.a (.mem (.izx d)) 6)

/-- `C5` CMP zp, 3 cycles (R135). -/
def execCmpZp (d : Byte) (s : State) : Result := .next (s.compareOperand s.a (.mem (.zp d)) 3)

/-- `C9` CMP #, 2 cycles (R135). -/
def execCmpImm (d : Byte) (s : State) : Result := .next (s.compareOperand s.a (.imm d) 2)

/-- `CD` CMP abs, 4 cycles (R135). -/
def execCmpAbs (a : Addr) (s : State) : Result := .next (s.compareOperand s.a (.mem (.abs a)) 4)

/-- `D1` CMP (zp),Y, 5+p cycles (R135). -/
def execCmpIzy (d : Byte) (s : State) : Result := .next (s.compareOperand s.a (.mem (.izy d)) 5)

/-- `D5` CMP zp,X, 4 cycles (R135). -/
def execCmpZpx (d : Byte) (s : State) : Result := .next (s.compareOperand s.a (.mem (.zpx d)) 4)

/-- `D9` CMP abs,Y, 4+p cycles (R135). -/
def execCmpAby (a : Addr) (s : State) : Result := .next (s.compareOperand s.a (.mem (.aby a)) 4)

/-- `DD` CMP abs,X, 4+p cycles (R135). -/
def execCmpAbx (a : Addr) (s : State) : Result := .next (s.compareOperand s.a (.mem (.abx a)) 4)

/-- `E0` CPX #, 2 cycles (R136). -/
def execCpxImm (d : Byte) (s : State) : Result := .next (s.compareOperand s.x (.imm d) 2)

/-- `E4` CPX zp, 3 cycles (R136). -/
def execCpxZp (d : Byte) (s : State) : Result := .next (s.compareOperand s.x (.mem (.zp d)) 3)

/-- `EC` CPX abs, 4 cycles (R136). -/
def execCpxAbs (a : Addr) (s : State) : Result := .next (s.compareOperand s.x (.mem (.abs a)) 4)

/-- `C0` CPY #, 2 cycles (R137). -/
def execCpyImm (d : Byte) (s : State) : Result := .next (s.compareOperand s.y (.imm d) 2)

/-- `C4` CPY zp, 3 cycles (R137). -/
def execCpyZp (d : Byte) (s : State) : Result := .next (s.compareOperand s.y (.mem (.zp d)) 3)

/-- `CC` CPY abs, 4 cycles (R137). -/
def execCpyAbs (a : Addr) (s : State) : Result := .next (s.compareOperand s.y (.mem (.abs a)) 4)

/-- `E6` INC zp, 5 cycles (R138). -/
def execIncZp (d : Byte) (s : State) : Result := .next (s.bumpOperand 0x01#8 (.zp d) 5)

/-- `EE` INC abs, 6 cycles (R138). -/
def execIncAbs (a : Addr) (s : State) : Result := .next (s.bumpOperand 0x01#8 (.abs a) 6)

/-- `F6` INC zp,X, 6 cycles (R138). -/
def execIncZpx (d : Byte) (s : State) : Result := .next (s.bumpOperand 0x01#8 (.zpx d) 6)

/-- `FE` INC abs,X, 7 cycles (R138). -/
def execIncAbx (a : Addr) (s : State) : Result := .next (s.bumpOperand 0x01#8 (.abx a) 7)

/-- `E8` INX, 2 cycles (R139). -/
def execInx (s : State) : Result := .next (State.setNZ (s.x + 1#8) { s.charge 2 with x := s.x + 1#8 })

/-- `C8` INY, 2 cycles (R140). -/
def execIny (s : State) : Result := .next (State.setNZ (s.y + 1#8) { s.charge 2 with y := s.y + 1#8 })

/-- `C6` DEC zp, 5 cycles (R141). -/
def execDecZp (d : Byte) (s : State) : Result := .next (s.bumpOperand 0xFF#8 (.zp d) 5)

/-- `CE` DEC abs, 6 cycles (R141). -/
def execDecAbs (a : Addr) (s : State) : Result := .next (s.bumpOperand 0xFF#8 (.abs a) 6)

/-- `D6` DEC zp,X, 6 cycles (R141). -/
def execDecZpx (d : Byte) (s : State) : Result := .next (s.bumpOperand 0xFF#8 (.zpx d) 6)

/-- `DE` DEC abs,X, 7 cycles (R141). -/
def execDecAbx (a : Addr) (s : State) : Result := .next (s.bumpOperand 0xFF#8 (.abx a) 7)

/-- `CA` DEX, 2 cycles (R142). -/
def execDex (s : State) : Result := .next (State.setNZ (s.x - 1#8) { s.charge 2 with x := s.x - 1#8 })

/-- `88` DEY, 2 cycles (R143). -/
def execDey (s : State) : Result := .next (State.setNZ (s.y - 1#8) { s.charge 2 with y := s.y - 1#8 })

end Sys2Proof.Machine
end

