-- ==== Sys2Proof/Machine/Control.lean ====
section
/-! DEFINITION. Branches, jumps, subroutine call and return (44_control_transfer.md R170 to R183). -/

namespace Sys2Proof.Machine

/-- `Branch(cond)` (R170): two cycles, one more when taken, one more again when the target is in another page. -/
def State.branch (cond : Bool) (d : Byte) (s : State) : State :=
  if cond then { s.charge (2 + 1 + (branchCrossed d s).toNat) with pc := branchTarget d s } else s.charge 2

/-- `10` BPL rel, 2+b cycles (R171). -/
def execBpl (d : Byte) (s : State) : Result := .next (s.branch (!flagN s.p) d)

/-- `30` BMI rel, 2+b cycles (R172). -/
def execBmi (d : Byte) (s : State) : Result := .next (s.branch (flagN s.p) d)

/-- `50` BVC rel, 2+b cycles (R173). -/
def execBvc (d : Byte) (s : State) : Result := .next (s.branch (!flagV s.p) d)

/-- `70` BVS rel, 2+b cycles (R174). -/
def execBvs (d : Byte) (s : State) : Result := .next (s.branch (flagV s.p) d)

/-- `90` BCC rel, 2+b cycles (R175). -/
def execBcc (d : Byte) (s : State) : Result := .next (s.branch (!flagC s.p) d)

/-- `B0` BCS rel, 2+b cycles (R176). -/
def execBcs (d : Byte) (s : State) : Result := .next (s.branch (flagC s.p) d)

/-- `D0` BNE rel, 2+b cycles (R177). -/
def execBne (d : Byte) (s : State) : Result := .next (s.branch (!flagZ s.p) d)

/-- `F0` BEQ rel, 2+b cycles (R178). -/
def execBeq (d : Byte) (s : State) : Result := .next (s.branch (flagZ s.p) d)

/-- `4C` JMP abs, 3 cycles (R179). -/
def execJmpAbs (a : Addr) (s : State) : Result :=
  .next { s.charge 3 with pc := a }

/-- `20` JSR abs, 6 cycles (R180). PC is at the byte after the instruction, so the pushed address is that of its third byte. -/
def execJsr (a : Addr) (s : State) : Result := .next { (s.charge 6).pushAddr (s.pc - 1#16) with pc := a }

/-- `6C` JMP (abs), 5 cycles (R181). -/
def execJmpInd (a : Addr) (s : State) : Result :=
  let (target, s) := (s.charge 5).readIndirect a
  .next { s with pc := target }

/-- `60` RTS, 6 cycles (R182). -/
def execRts (s : State) : Result :=
  let (target, s) := (s.charge 6).pullAddr
  .next { s with pc := target + 1#16 }

end Sys2Proof.Machine
end

