-- ==== Sys2Proof/Machine/LoadStore.lean ====
section
/-! DEFINITION. Load, store and register-transfer instructions (40_load_store_transfer.md R100 to R112). -/

namespace Sys2Proof.Machine

/-- `A <- MemRead(ea, 1); SetNZ` (R101). -/
def State.loadA (o : Source) (base : Nat) (s : State) : State :=
  let (m, s) := s.readOperand o base
  State.setNZ m { s with a := m }

/-- `X <- MemRead(ea, 1); SetNZ` (R102). -/
def State.loadX (o : Source) (base : Nat) (s : State) : State :=
  let (m, s) := s.readOperand o base
  State.setNZ m { s with x := m }

/-- `Y <- MemRead(ea, 1); SetNZ` (R103). -/
def State.loadY (o : Source) (base : Nat) (s : State) : State :=
  let (m, s) := s.readOperand o base
  State.setNZ m { s with y := m }

/-- `A1` LDA (zp,X), 6 cycles (R101). -/
def execLdaIzx (d : Byte) (s : State) : Result := .next (s.loadA (.mem (.izx d)) 6)

/-- `A5` LDA zp, 3 cycles (R101). -/
def execLdaZp (d : Byte) (s : State) : Result := .next (s.loadA (.mem (.zp d)) 3)

/-- `A9` LDA #, 2 cycles (R101). -/
def execLdaImm (d : Byte) (s : State) : Result := .next (s.loadA (.imm d) 2)

/-- `AD` LDA abs, 4 cycles (R101). -/
def execLdaAbs (a : Addr) (s : State) : Result := .next (s.loadA (.mem (.abs a)) 4)

/-- `B1` LDA (zp),Y, 5+p cycles (R101). -/
def execLdaIzy (d : Byte) (s : State) : Result := .next (s.loadA (.mem (.izy d)) 5)

/-- `B5` LDA zp,X, 4 cycles (R101). -/
def execLdaZpx (d : Byte) (s : State) : Result := .next (s.loadA (.mem (.zpx d)) 4)

/-- `B9` LDA abs,Y, 4+p cycles (R101). -/
def execLdaAby (a : Addr) (s : State) : Result := .next (s.loadA (.mem (.aby a)) 4)

/-- `BD` LDA abs,X, 4+p cycles (R101). -/
def execLdaAbx (a : Addr) (s : State) : Result := .next (s.loadA (.mem (.abx a)) 4)

/-- `A2` LDX #, 2 cycles (R102). -/
def execLdxImm (d : Byte) (s : State) : Result := .next (s.loadX (.imm d) 2)

/-- `A6` LDX zp, 3 cycles (R102). -/
def execLdxZp (d : Byte) (s : State) : Result := .next (s.loadX (.mem (.zp d)) 3)

/-- `AE` LDX abs, 4 cycles (R102). -/
def execLdxAbs (a : Addr) (s : State) : Result := .next (s.loadX (.mem (.abs a)) 4)

/-- `B6` LDX zp,Y, 4 cycles (R102). -/
def execLdxZpy (d : Byte) (s : State) : Result := .next (s.loadX (.mem (.zpy d)) 4)

/-- `BE` LDX abs,Y, 4+p cycles (R102). -/
def execLdxAby (a : Addr) (s : State) : Result := .next (s.loadX (.mem (.aby a)) 4)

/-- `A0` LDY #, 2 cycles (R103). -/
def execLdyImm (d : Byte) (s : State) : Result := .next (s.loadY (.imm d) 2)

/-- `A4` LDY zp, 3 cycles (R103). -/
def execLdyZp (d : Byte) (s : State) : Result := .next (s.loadY (.mem (.zp d)) 3)

/-- `AC` LDY abs, 4 cycles (R103). -/
def execLdyAbs (a : Addr) (s : State) : Result := .next (s.loadY (.mem (.abs a)) 4)

/-- `B4` LDY zp,X, 4 cycles (R103). -/
def execLdyZpx (d : Byte) (s : State) : Result := .next (s.loadY (.mem (.zpx d)) 4)

/-- `BC` LDY abs,X, 4+p cycles (R103). -/
def execLdyAbx (a : Addr) (s : State) : Result := .next (s.loadY (.mem (.abx a)) 4)

/-- `81` STA (zp,X), 6 cycles (R104). -/
def execStaIzx (d : Byte) (s : State) : Result := .next (s.writeOperand (.izx d) 6 s.a)

/-- `85` STA zp, 3 cycles (R104). -/
def execStaZp (d : Byte) (s : State) : Result := .next (s.writeOperand (.zp d) 3 s.a)

/-- `8D` STA abs, 4 cycles (R104). -/
def execStaAbs (a : Addr) (s : State) : Result := .next (s.writeOperand (.abs a) 4 s.a)

/-- `91` STA (zp),Y, 6 cycles (R104). -/
def execStaIzy (d : Byte) (s : State) : Result := .next (s.writeOperand (.izy d) 6 s.a)

/-- `95` STA zp,X, 4 cycles (R104). -/
def execStaZpx (d : Byte) (s : State) : Result := .next (s.writeOperand (.zpx d) 4 s.a)

/-- `99` STA abs,Y, 5 cycles (R104). -/
def execStaAby (a : Addr) (s : State) : Result := .next (s.writeOperand (.aby a) 5 s.a)

/-- `9D` STA abs,X, 5 cycles (R104). -/
def execStaAbx (a : Addr) (s : State) : Result := .next (s.writeOperand (.abx a) 5 s.a)

/-- `86` STX zp, 3 cycles (R105). -/
def execStxZp (d : Byte) (s : State) : Result := .next (s.writeOperand (.zp d) 3 s.x)

/-- `8E` STX abs, 4 cycles (R105). -/
def execStxAbs (a : Addr) (s : State) : Result := .next (s.writeOperand (.abs a) 4 s.x)

/-- `96` STX zp,Y, 4 cycles (R105). -/
def execStxZpy (d : Byte) (s : State) : Result := .next (s.writeOperand (.zpy d) 4 s.x)

/-- `84` STY zp, 3 cycles (R106). -/
def execStyZp (d : Byte) (s : State) : Result := .next (s.writeOperand (.zp d) 3 s.y)

/-- `8C` STY abs, 4 cycles (R106). -/
def execStyAbs (a : Addr) (s : State) : Result := .next (s.writeOperand (.abs a) 4 s.y)

/-- `94` STY zp,X, 4 cycles (R106). -/
def execStyZpx (d : Byte) (s : State) : Result := .next (s.writeOperand (.zpx d) 4 s.y)

/-- `AA` TAX, 2 cycles (R107). -/
def execTax (s : State) : Result := .next (State.setNZ s.a { s.charge 2 with x := s.a })

/-- `A8` TAY, 2 cycles (R108). -/
def execTay (s : State) : Result := .next (State.setNZ s.a { s.charge 2 with y := s.a })

/-- `8A` TXA, 2 cycles (R109). -/
def execTxa (s : State) : Result := .next (State.setNZ s.x { s.charge 2 with a := s.x })

/-- `98` TYA, 2 cycles (R110). -/
def execTya (s : State) : Result := .next (State.setNZ s.y { s.charge 2 with a := s.y })

/-- `BA` TSX, 2 cycles (R111). -/
def execTsx (s : State) : Result := .next (State.setNZ s.sp { s.charge 2 with x := s.sp })

/-- `9A` TXS, 2 cycles (R112). -/
def execTxs (s : State) : Result := .next { s.charge 2 with sp := s.x }

end Sys2Proof.Machine
end

