-- ==== Sys2Proof/Machine/LogicShift.lean ====
section
/-! DEFINITION. Logic, bit-test, shift and rotate instructions (43_logic_shift.md R150 to R159). -/

namespace Sys2Proof.Machine

/-- `A <- A op MemRead(ea, 1); SetNZ(A)` (R151 to R153). -/
def State.logicOperand (op : Byte → Byte → Byte) (o : Source) (base : Nat) (s : State) : State :=
  let (m, s) := s.readOperand o base
  State.setNZ (op s.a m) { s with a := op s.a m }

/-- BIT (R154): Z from the conjunction, N and V from the operand. -/
def State.bitOperand (o : Source) (base : Nat) (s : State) : State :=
  let (m, s) := s.readOperand o base
  { s with p := putV (m.getLsbD 6) (putN (m.getLsbD 7) (putZ (s.a &&& m == 0#8) s.p)) }

/-- `ShiftOp(f)` in accumulator mode (R155). -/
def State.shiftAcc (f : Shift) (base : Nat) (s : State) : State :=
  let r := f s.a (flagC s.p)
  State.setNZ r.1 (State.setC r.2 { s.charge base with a := r.1 })

/-- `ShiftOp(f)` in a memory mode (R155). -/
def State.shiftOperand (f : Shift) (o : MemOperand) (base : Nat) (s : State) : State :=
  let c := flagC s.p
  let (m, s) := s.modifyOperand o base fun m => (f m c).1
  (s.setC (f m c).2).setNZ (f m c).1

/-- `21` AND (zp,X), 6 cycles (R151). -/
def execAndIzx (d : Byte) (s : State) : Result := .next (s.logicOperand (· &&& ·) (.mem (.izx d)) 6)

/-- `25` AND zp, 3 cycles (R151). -/
def execAndZp (d : Byte) (s : State) : Result := .next (s.logicOperand (· &&& ·) (.mem (.zp d)) 3)

/-- `29` AND #, 2 cycles (R151). -/
def execAndImm (d : Byte) (s : State) : Result := .next (s.logicOperand (· &&& ·) (.imm d) 2)

/-- `2D` AND abs, 4 cycles (R151). -/
def execAndAbs (a : Addr) (s : State) : Result := .next (s.logicOperand (· &&& ·) (.mem (.abs a)) 4)

/-- `31` AND (zp),Y, 5+p cycles (R151). -/
def execAndIzy (d : Byte) (s : State) : Result := .next (s.logicOperand (· &&& ·) (.mem (.izy d)) 5)

/-- `35` AND zp,X, 4 cycles (R151). -/
def execAndZpx (d : Byte) (s : State) : Result := .next (s.logicOperand (· &&& ·) (.mem (.zpx d)) 4)

/-- `39` AND abs,Y, 4+p cycles (R151). -/
def execAndAby (a : Addr) (s : State) : Result := .next (s.logicOperand (· &&& ·) (.mem (.aby a)) 4)

/-- `3D` AND abs,X, 4+p cycles (R151). -/
def execAndAbx (a : Addr) (s : State) : Result := .next (s.logicOperand (· &&& ·) (.mem (.abx a)) 4)

/-- `01` ORA (zp,X), 6 cycles (R152). -/
def execOraIzx (d : Byte) (s : State) : Result := .next (s.logicOperand (· ||| ·) (.mem (.izx d)) 6)

/-- `05` ORA zp, 3 cycles (R152). -/
def execOraZp (d : Byte) (s : State) : Result := .next (s.logicOperand (· ||| ·) (.mem (.zp d)) 3)

/-- `09` ORA #, 2 cycles (R152). -/
def execOraImm (d : Byte) (s : State) : Result := .next (s.logicOperand (· ||| ·) (.imm d) 2)

/-- `0D` ORA abs, 4 cycles (R152). -/
def execOraAbs (a : Addr) (s : State) : Result := .next (s.logicOperand (· ||| ·) (.mem (.abs a)) 4)

/-- `11` ORA (zp),Y, 5+p cycles (R152). -/
def execOraIzy (d : Byte) (s : State) : Result := .next (s.logicOperand (· ||| ·) (.mem (.izy d)) 5)

/-- `15` ORA zp,X, 4 cycles (R152). -/
def execOraZpx (d : Byte) (s : State) : Result := .next (s.logicOperand (· ||| ·) (.mem (.zpx d)) 4)

/-- `19` ORA abs,Y, 4+p cycles (R152). -/
def execOraAby (a : Addr) (s : State) : Result := .next (s.logicOperand (· ||| ·) (.mem (.aby a)) 4)

/-- `1D` ORA abs,X, 4+p cycles (R152). -/
def execOraAbx (a : Addr) (s : State) : Result := .next (s.logicOperand (· ||| ·) (.mem (.abx a)) 4)

/-- `41` EOR (zp,X), 6 cycles (R153). -/
def execEorIzx (d : Byte) (s : State) : Result := .next (s.logicOperand (· ^^^ ·) (.mem (.izx d)) 6)

/-- `45` EOR zp, 3 cycles (R153). -/
def execEorZp (d : Byte) (s : State) : Result := .next (s.logicOperand (· ^^^ ·) (.mem (.zp d)) 3)

/-- `49` EOR #, 2 cycles (R153). -/
def execEorImm (d : Byte) (s : State) : Result := .next (s.logicOperand (· ^^^ ·) (.imm d) 2)

/-- `4D` EOR abs, 4 cycles (R153). -/
def execEorAbs (a : Addr) (s : State) : Result := .next (s.logicOperand (· ^^^ ·) (.mem (.abs a)) 4)

/-- `51` EOR (zp),Y, 5+p cycles (R153). -/
def execEorIzy (d : Byte) (s : State) : Result := .next (s.logicOperand (· ^^^ ·) (.mem (.izy d)) 5)

/-- `55` EOR zp,X, 4 cycles (R153). -/
def execEorZpx (d : Byte) (s : State) : Result := .next (s.logicOperand (· ^^^ ·) (.mem (.zpx d)) 4)

/-- `59` EOR abs,Y, 4+p cycles (R153). -/
def execEorAby (a : Addr) (s : State) : Result := .next (s.logicOperand (· ^^^ ·) (.mem (.aby a)) 4)

/-- `5D` EOR abs,X, 4+p cycles (R153). -/
def execEorAbx (a : Addr) (s : State) : Result := .next (s.logicOperand (· ^^^ ·) (.mem (.abx a)) 4)

/-- `24` BIT zp, 3 cycles (R154). -/
def execBitZp (d : Byte) (s : State) : Result := .next (s.bitOperand (.mem (.zp d)) 3)

/-- `2C` BIT abs, 4 cycles (R154). -/
def execBitAbs (a : Addr) (s : State) : Result := .next (s.bitOperand (.mem (.abs a)) 4)

/-- `06` ASL zp, 5 cycles (R156). -/
def execAslZp (d : Byte) (s : State) : Result := .next (s.shiftOperand shiftAsl (.zp d) 5)

/-- `0A` ASL A, 2 cycles (R156). -/
def execAslAcc (s : State) : Result := .next (s.shiftAcc shiftAsl 2)

/-- `0E` ASL abs, 6 cycles (R156). -/
def execAslAbs (a : Addr) (s : State) : Result := .next (s.shiftOperand shiftAsl (.abs a) 6)

/-- `16` ASL zp,X, 6 cycles (R156). -/
def execAslZpx (d : Byte) (s : State) : Result := .next (s.shiftOperand shiftAsl (.zpx d) 6)

/-- `1E` ASL abs,X, 7 cycles (R156). -/
def execAslAbx (a : Addr) (s : State) : Result := .next (s.shiftOperand shiftAsl (.abx a) 7)

/-- `46` LSR zp, 5 cycles (R157). -/
def execLsrZp (d : Byte) (s : State) : Result := .next (s.shiftOperand shiftLsr (.zp d) 5)

/-- `4A` LSR A, 2 cycles (R157). -/
def execLsrAcc (s : State) : Result := .next (s.shiftAcc shiftLsr 2)

/-- `4E` LSR abs, 6 cycles (R157). -/
def execLsrAbs (a : Addr) (s : State) : Result := .next (s.shiftOperand shiftLsr (.abs a) 6)

/-- `56` LSR zp,X, 6 cycles (R157). -/
def execLsrZpx (d : Byte) (s : State) : Result := .next (s.shiftOperand shiftLsr (.zpx d) 6)

/-- `5E` LSR abs,X, 7 cycles (R157). -/
def execLsrAbx (a : Addr) (s : State) : Result := .next (s.shiftOperand shiftLsr (.abx a) 7)

/-- `26` ROL zp, 5 cycles (R158). -/
def execRolZp (d : Byte) (s : State) : Result := .next (s.shiftOperand shiftRol (.zp d) 5)

/-- `2A` ROL A, 2 cycles (R158). -/
def execRolAcc (s : State) : Result := .next (s.shiftAcc shiftRol 2)

/-- `2E` ROL abs, 6 cycles (R158). -/
def execRolAbs (a : Addr) (s : State) : Result := .next (s.shiftOperand shiftRol (.abs a) 6)

/-- `36` ROL zp,X, 6 cycles (R158). -/
def execRolZpx (d : Byte) (s : State) : Result := .next (s.shiftOperand shiftRol (.zpx d) 6)

/-- `3E` ROL abs,X, 7 cycles (R158). -/
def execRolAbx (a : Addr) (s : State) : Result := .next (s.shiftOperand shiftRol (.abx a) 7)

/-- `66` ROR zp, 5 cycles (R159). -/
def execRorZp (d : Byte) (s : State) : Result := .next (s.shiftOperand shiftRor (.zp d) 5)

/-- `6A` ROR A, 2 cycles (R159). -/
def execRorAcc (s : State) : Result := .next (s.shiftAcc shiftRor 2)

/-- `6E` ROR abs, 6 cycles (R159). -/
def execRorAbs (a : Addr) (s : State) : Result := .next (s.shiftOperand shiftRor (.abs a) 6)

/-- `76` ROR zp,X, 6 cycles (R159). -/
def execRorZpx (d : Byte) (s : State) : Result := .next (s.shiftOperand shiftRor (.zpx d) 6)

/-- `7E` ROR abs,X, 7 cycles (R159). -/
def execRorAbx (a : Addr) (s : State) : Result := .next (s.shiftOperand shiftRor (.abx a) 7)

end Sys2Proof.Machine
end

