-- ==== Sys2Proof/Machine/Stack.lean ====
section
/-! DEFINITION. Stack instructions (41_stack.md R120 to R124). -/

namespace Sys2Proof.Machine

/-- `48` PHA, 3 cycles (R121). -/
def execPha (s : State) : Result := .next ((s.charge 3).push s.a)

/-- `08` PHP, 3 cycles (R122). -/
def execPhp (s : State) : Result := .next ((s.charge 3).push (pushedByProgram s.p))

/-- `68` PLA, 4 cycles (R123). -/
def execPla (s : State) : Result :=
  let (m, s) := (s.charge 4).pull
  .next (State.setNZ m { s with a := m })

/-- `28` PLP, 4 cycles (R124). -/
def execPlp (s : State) : Result :=
  let (m, s) := (s.charge 4).pull
  .next { s with p := pulledFlags m }

end Sys2Proof.Machine
end

