-- ==== Sys2Proof/Machine/System.lean ====
section
/-! DEFINITION. Flag instructions, NOP, BRK and RTI (45_flags_system.md R190 to R206). -/

namespace Sys2Proof.Machine

/-- `18` CLC, 2 cycles (R191). -/
def execClc (s : State) : Result := .next { s.charge 2 with p := putC false s.p }

/-- `38` SEC, 2 cycles (R192). -/
def execSec (s : State) : Result := .next { s.charge 2 with p := putC true s.p }

/-- `58` CLI, 2 cycles (R193). -/
def execCli (s : State) : Result := .next { s.charge 2 with p := putI false s.p }

/-- `78` SEI, 2 cycles (R194). -/
def execSei (s : State) : Result := .next { s.charge 2 with p := putI true s.p }

/-- `B8` CLV, 2 cycles (R195). -/
def execClv (s : State) : Result := .next { s.charge 2 with p := putV false s.p }

/-- `D8` CLD, 2 cycles (R196). -/
def execCld (s : State) : Result := .next { s.charge 2 with p := putD false s.p }

/-- `F8` SED, 2 cycles (R197). -/
def execSed (s : State) : Result := .next { s.charge 2 with p := putD true s.p }

/-- `EA` NOP, 2 cycles (R198). -/
def execNop (s : State) : Result := .next (s.charge 2)

/-- `00` BRK, 7 cycles (R204). PC is at the byte after the opcode, so `pc0 + 2` is one further; that byte is skipped and not read. -/
def execBrk (s : State) : Result :=
  .next ((s.charge 7).enter Config.vectorIrq (s.pc + 1#16) (pushedByProgram s.p))

/-- `40` RTI, 6 cycles (R205). -/
def execRti (s : State) : Result := .next ((s.charge 6).leave)

end Sys2Proof.Machine
end

