-- ==== Sys2Proof/Machine/Undocumented.lean ====
section
/-! DEFINITION. Undocumented instructions (46_undocumented.md R210 to R222) and the bytes without a meaning
(30_encoding.md R83). -/

namespace Sys2Proof.Machine

/-- A read whose value is discarded (R211, R212). -/
def State.readAndDiscard (o : MemOperand) (base : Nat) (s : State) : State := (s.readOperand (.mem o) base).2

/-- `A <- m; X <- m; SetNZ(m)` (R213). -/
def State.loadAX (o : MemOperand) (base : Nat) (s : State) : State :=
  let (m, s) := s.readOperand (.mem o) base
  State.setNZ m { s with a := m, x := m }

/-- Shift a byte of memory, then combine it with A (R215 to R217). -/
def State.shiftThenLogic (f : Shift) (op : Byte → Byte → Byte) (o : MemOperand) (base : Nat) (s : State) : State :=
  let c := flagC s.p
  let (m, s) := s.modifyOperand o base fun m => (f m c).1
  let r := f m c
  State.setNZ (op s.a r.1) (State.setC r.2 { s with a := op s.a r.1 })

/-- Rotate a byte of memory right, then `Adc` it with the bit rotated out as carry-in (R218). -/
def State.rotateThenAdc (o : MemOperand) (base : Nat) (s : State) : State :=
  let c := flagC s.p
  let (m, s) := s.modifyOperand o base fun m => (shiftRor m c).1
  (s.setC (shiftRor m c).2).adc (shiftRor m c).1

/-- Decrement a byte of memory, then compare A with it (R219). -/
def State.decrementThenCompare (o : MemOperand) (base : Nat) (s : State) : State :=
  let (m, s) := s.modifyOperand o base fun m => m - 1#8
  s.compare s.a (m - 1#8)

/-- Increment a byte of memory, then `Sbc` it (R220). -/
def State.incrementThenSbc (o : MemOperand) (base : Nat) (s : State) : State :=
  let (m, s) := s.modifyOperand o base fun m => m + 1#8
  s.sbc (m + 1#8)

/-- `04` *DOP zp, 3 cycles (R211). -/
def execDopZp04 (d : Byte) (s : State) : Result := .next (s.readAndDiscard (.zp d) 3)

/-- `14` *DOP zp,X, 4 cycles (R211). -/
def execDopZpx14 (d : Byte) (s : State) : Result := .next (s.readAndDiscard (.zpx d) 4)

/-- `34` *DOP zp,X, 4 cycles (R211). -/
def execDopZpx34 (d : Byte) (s : State) : Result := .next (s.readAndDiscard (.zpx d) 4)

/-- `44` *DOP zp, 3 cycles (R211). -/
def execDopZp44 (d : Byte) (s : State) : Result := .next (s.readAndDiscard (.zp d) 3)

/-- `54` *DOP zp,X, 4 cycles (R211). -/
def execDopZpx54 (d : Byte) (s : State) : Result := .next (s.readAndDiscard (.zpx d) 4)

/-- `64` *DOP zp, 3 cycles (R211). -/
def execDopZp64 (d : Byte) (s : State) : Result := .next (s.readAndDiscard (.zp d) 3)

/-- `74` *DOP zp,X, 4 cycles (R211). -/
def execDopZpx74 (d : Byte) (s : State) : Result := .next (s.readAndDiscard (.zpx d) 4)

/-- `80` *DOP #, 2 cycles (R211). -/
def execDopImm80 (_d : Byte) (s : State) : Result := .next (s.charge 2)

/-- `82` *DOP #, 2 cycles (R211). -/
def execDopImm82 (_d : Byte) (s : State) : Result := .next (s.charge 2)

/-- `89` *DOP #, 2 cycles (R211). -/
def execDopImm89 (_d : Byte) (s : State) : Result := .next (s.charge 2)

/-- `C2` *DOP #, 2 cycles (R211). -/
def execDopImmC2 (_d : Byte) (s : State) : Result := .next (s.charge 2)

/-- `D4` *DOP zp,X, 4 cycles (R211). -/
def execDopZpxD4 (d : Byte) (s : State) : Result := .next (s.readAndDiscard (.zpx d) 4)

/-- `E2` *DOP #, 2 cycles (R211). -/
def execDopImmE2 (_d : Byte) (s : State) : Result := .next (s.charge 2)

/-- `F4` *DOP zp,X, 4 cycles (R211). -/
def execDopZpxF4 (d : Byte) (s : State) : Result := .next (s.readAndDiscard (.zpx d) 4)

/-- `0C` *TOP abs, 4 cycles (R212). -/
def execTopAbs (a : Addr) (s : State) : Result := .next (s.readAndDiscard (.abs a) 4)

/-- `1C` *TOP abs,X, 4+p cycles (R212). -/
def execTopAbx1C (a : Addr) (s : State) : Result := .next (s.readAndDiscard (.abx a) 4)

/-- `3C` *TOP abs,X, 4+p cycles (R212). -/
def execTopAbx3C (a : Addr) (s : State) : Result := .next (s.readAndDiscard (.abx a) 4)

/-- `5C` *TOP abs,X, 4+p cycles (R212). -/
def execTopAbx5C (a : Addr) (s : State) : Result := .next (s.readAndDiscard (.abx a) 4)

/-- `7C` *TOP abs,X, 4+p cycles (R212). -/
def execTopAbx7C (a : Addr) (s : State) : Result := .next (s.readAndDiscard (.abx a) 4)

/-- `DC` *TOP abs,X, 4+p cycles (R212). -/
def execTopAbxDC (a : Addr) (s : State) : Result := .next (s.readAndDiscard (.abx a) 4)

/-- `FC` *TOP abs,X, 4+p cycles (R212). -/
def execTopAbxFC (a : Addr) (s : State) : Result := .next (s.readAndDiscard (.abx a) 4)

/-- `A3` *LAX (zp,X), 6 cycles (R213). -/
def execLaxIzx (d : Byte) (s : State) : Result := .next (s.loadAX (.izx d) 6)

/-- `A7` *LAX zp, 3 cycles (R213). -/
def execLaxZp (d : Byte) (s : State) : Result := .next (s.loadAX (.zp d) 3)

/-- `AF` *LAX abs, 4 cycles (R213). -/
def execLaxAbs (a : Addr) (s : State) : Result := .next (s.loadAX (.abs a) 4)

/-- `B3` *LAX (zp),Y, 5+p cycles (R213). -/
def execLaxIzy (d : Byte) (s : State) : Result := .next (s.loadAX (.izy d) 5)

/-- `B7` *LAX zp,Y, 4 cycles (R213). -/
def execLaxZpy (d : Byte) (s : State) : Result := .next (s.loadAX (.zpy d) 4)

/-- `BF` *LAX abs,Y, 4+p cycles (R213). -/
def execLaxAby (a : Addr) (s : State) : Result := .next (s.loadAX (.aby a) 4)

/-- `83` *AAX (zp,X), 6 cycles (R214). -/
def execAaxIzx (d : Byte) (s : State) : Result := .next (s.writeOperand (.izx d) 6 (s.a &&& s.x))

/-- `87` *AAX zp, 3 cycles (R214). -/
def execAaxZp (d : Byte) (s : State) : Result := .next (s.writeOperand (.zp d) 3 (s.a &&& s.x))

/-- `8F` *AAX abs, 4 cycles (R214). -/
def execAaxAbs (a : Addr) (s : State) : Result := .next (s.writeOperand (.abs a) 4 (s.a &&& s.x))

/-- `97` *AAX zp,Y, 4 cycles (R214). -/
def execAaxZpy (d : Byte) (s : State) : Result := .next (s.writeOperand (.zpy d) 4 (s.a &&& s.x))

/-- `03` *SLO (zp,X), 8 cycles (R215). -/
def execSloIzx (d : Byte) (s : State) : Result := .next (s.shiftThenLogic shiftAsl (· ||| ·) (.izx d) 8)

/-- `07` *SLO zp, 5 cycles (R215). -/
def execSloZp (d : Byte) (s : State) : Result := .next (s.shiftThenLogic shiftAsl (· ||| ·) (.zp d) 5)

/-- `0F` *SLO abs, 6 cycles (R215). -/
def execSloAbs (a : Addr) (s : State) : Result := .next (s.shiftThenLogic shiftAsl (· ||| ·) (.abs a) 6)

/-- `13` *SLO (zp),Y, 8 cycles (R215). -/
def execSloIzy (d : Byte) (s : State) : Result := .next (s.shiftThenLogic shiftAsl (· ||| ·) (.izy d) 8)

/-- `17` *SLO zp,X, 6 cycles (R215). -/
def execSloZpx (d : Byte) (s : State) : Result := .next (s.shiftThenLogic shiftAsl (· ||| ·) (.zpx d) 6)

/-- `1B` *SLO abs,Y, 7 cycles (R215). -/
def execSloAby (a : Addr) (s : State) : Result := .next (s.shiftThenLogic shiftAsl (· ||| ·) (.aby a) 7)

/-- `1F` *SLO abs,X, 7 cycles (R215). -/
def execSloAbx (a : Addr) (s : State) : Result := .next (s.shiftThenLogic shiftAsl (· ||| ·) (.abx a) 7)

/-- `23` *RLA (zp,X), 8 cycles (R216). -/
def execRlaIzx (d : Byte) (s : State) : Result := .next (s.shiftThenLogic shiftRol (· &&& ·) (.izx d) 8)

/-- `27` *RLA zp, 5 cycles (R216). -/
def execRlaZp (d : Byte) (s : State) : Result := .next (s.shiftThenLogic shiftRol (· &&& ·) (.zp d) 5)

/-- `2F` *RLA abs, 6 cycles (R216). -/
def execRlaAbs (a : Addr) (s : State) : Result := .next (s.shiftThenLogic shiftRol (· &&& ·) (.abs a) 6)

/-- `33` *RLA (zp),Y, 8 cycles (R216). -/
def execRlaIzy (d : Byte) (s : State) : Result := .next (s.shiftThenLogic shiftRol (· &&& ·) (.izy d) 8)

/-- `37` *RLA zp,X, 6 cycles (R216). -/
def execRlaZpx (d : Byte) (s : State) : Result := .next (s.shiftThenLogic shiftRol (· &&& ·) (.zpx d) 6)

/-- `3B` *RLA abs,Y, 7 cycles (R216). -/
def execRlaAby (a : Addr) (s : State) : Result := .next (s.shiftThenLogic shiftRol (· &&& ·) (.aby a) 7)

/-- `3F` *RLA abs,X, 7 cycles (R216). -/
def execRlaAbx (a : Addr) (s : State) : Result := .next (s.shiftThenLogic shiftRol (· &&& ·) (.abx a) 7)

/-- `43` *SRE (zp,X), 8 cycles (R217). -/
def execSreIzx (d : Byte) (s : State) : Result := .next (s.shiftThenLogic shiftLsr (· ^^^ ·) (.izx d) 8)

/-- `47` *SRE zp, 5 cycles (R217). -/
def execSreZp (d : Byte) (s : State) : Result := .next (s.shiftThenLogic shiftLsr (· ^^^ ·) (.zp d) 5)

/-- `4F` *SRE abs, 6 cycles (R217). -/
def execSreAbs (a : Addr) (s : State) : Result := .next (s.shiftThenLogic shiftLsr (· ^^^ ·) (.abs a) 6)

/-- `53` *SRE (zp),Y, 8 cycles (R217). -/
def execSreIzy (d : Byte) (s : State) : Result := .next (s.shiftThenLogic shiftLsr (· ^^^ ·) (.izy d) 8)

/-- `57` *SRE zp,X, 6 cycles (R217). -/
def execSreZpx (d : Byte) (s : State) : Result := .next (s.shiftThenLogic shiftLsr (· ^^^ ·) (.zpx d) 6)

/-- `5B` *SRE abs,Y, 7 cycles (R217). -/
def execSreAby (a : Addr) (s : State) : Result := .next (s.shiftThenLogic shiftLsr (· ^^^ ·) (.aby a) 7)

/-- `5F` *SRE abs,X, 7 cycles (R217). -/
def execSreAbx (a : Addr) (s : State) : Result := .next (s.shiftThenLogic shiftLsr (· ^^^ ·) (.abx a) 7)

/-- `63` *RRA (zp,X), 8 cycles (R218). -/
def execRraIzx (d : Byte) (s : State) : Result := .next (s.rotateThenAdc (.izx d) 8)

/-- `67` *RRA zp, 5 cycles (R218). -/
def execRraZp (d : Byte) (s : State) : Result := .next (s.rotateThenAdc (.zp d) 5)

/-- `6F` *RRA abs, 6 cycles (R218). -/
def execRraAbs (a : Addr) (s : State) : Result := .next (s.rotateThenAdc (.abs a) 6)

/-- `73` *RRA (zp),Y, 8 cycles (R218). -/
def execRraIzy (d : Byte) (s : State) : Result := .next (s.rotateThenAdc (.izy d) 8)

/-- `77` *RRA zp,X, 6 cycles (R218). -/
def execRraZpx (d : Byte) (s : State) : Result := .next (s.rotateThenAdc (.zpx d) 6)

/-- `7B` *RRA abs,Y, 7 cycles (R218). -/
def execRraAby (a : Addr) (s : State) : Result := .next (s.rotateThenAdc (.aby a) 7)

/-- `7F` *RRA abs,X, 7 cycles (R218). -/
def execRraAbx (a : Addr) (s : State) : Result := .next (s.rotateThenAdc (.abx a) 7)

/-- `C3` *DCP (zp,X), 8 cycles (R219). -/
def execDcpIzx (d : Byte) (s : State) : Result := .next (s.decrementThenCompare (.izx d) 8)

/-- `C7` *DCP zp, 5 cycles (R219). -/
def execDcpZp (d : Byte) (s : State) : Result := .next (s.decrementThenCompare (.zp d) 5)

/-- `CF` *DCP abs, 6 cycles (R219). -/
def execDcpAbs (a : Addr) (s : State) : Result := .next (s.decrementThenCompare (.abs a) 6)

/-- `D3` *DCP (zp),Y, 8 cycles (R219). -/
def execDcpIzy (d : Byte) (s : State) : Result := .next (s.decrementThenCompare (.izy d) 8)

/-- `D7` *DCP zp,X, 6 cycles (R219). -/
def execDcpZpx (d : Byte) (s : State) : Result := .next (s.decrementThenCompare (.zpx d) 6)

/-- `DB` *DCP abs,Y, 7 cycles (R219). -/
def execDcpAby (a : Addr) (s : State) : Result := .next (s.decrementThenCompare (.aby a) 7)

/-- `DF` *DCP abs,X, 7 cycles (R219). -/
def execDcpAbx (a : Addr) (s : State) : Result := .next (s.decrementThenCompare (.abx a) 7)

/-- `E3` *ISC (zp,X), 8 cycles (R220). -/
def execIscIzx (d : Byte) (s : State) : Result := .next (s.incrementThenSbc (.izx d) 8)

/-- `E7` *ISC zp, 5 cycles (R220). -/
def execIscZp (d : Byte) (s : State) : Result := .next (s.incrementThenSbc (.zp d) 5)

/-- `EF` *ISC abs, 6 cycles (R220). -/
def execIscAbs (a : Addr) (s : State) : Result := .next (s.incrementThenSbc (.abs a) 6)

/-- `F3` *ISC (zp),Y, 8 cycles (R220). -/
def execIscIzy (d : Byte) (s : State) : Result := .next (s.incrementThenSbc (.izy d) 8)

/-- `F7` *ISC zp,X, 6 cycles (R220). -/
def execIscZpx (d : Byte) (s : State) : Result := .next (s.incrementThenSbc (.zpx d) 6)

/-- `FB` *ISC abs,Y, 7 cycles (R220). -/
def execIscAby (a : Addr) (s : State) : Result := .next (s.incrementThenSbc (.aby a) 7)

/-- `FF` *ISC abs,X, 7 cycles (R220). -/
def execIscAbx (a : Addr) (s : State) : Result := .next (s.incrementThenSbc (.abx a) 7)

/-- `1A` *NOP, 2 cycles (R221). -/
def execNop1A (s : State) : Result := .next (s.charge 2)

/-- `3A` *NOP, 2 cycles (R221). -/
def execNop3A (s : State) : Result := .next (s.charge 2)

/-- `5A` *NOP, 2 cycles (R221). -/
def execNop5A (s : State) : Result := .next (s.charge 2)

/-- `7A` *NOP, 2 cycles (R221). -/
def execNop7A (s : State) : Result := .next (s.charge 2)

/-- `DA` *NOP, 2 cycles (R221). -/
def execNopDA (s : State) : Result := .next (s.charge 2)

/-- `FA` *NOP, 2 cycles (R221). -/
def execNopFA (s : State) : Result := .next (s.charge 2)

/-- `EB` *SBC #, 2 cycles (R222). -/
def execSbcImmEB (d : Byte) (s : State) : Result := .next (s.sbcOperand (.imm d) 2)

/-- `UNASSIGNED_POLICY` (00_scope.md R4): `refuse Unassigned(op)`, since the spec gives the 25 bytes no effect
(30_encoding.md R83, D9). -/
def execUnassigned (op : Byte) (s : State) : Result :=
  match s.params.unassigned with
  | .refuse => .refused (.unassigned op)

end Sys2Proof.Machine
end

