-- ==== Sys2Proof/Machine/Dispatch.lean ====
section
/-! DEFINITION. One arm for each constructor of Instr: the meaning of the instruction after its bytes are fetched and PC
is at the next instruction (30_encoding.md R90). -/

namespace Sys2Proof.Machine

def exec (i : Instr) (s : State) : Host.Outcome State Fault Refusal :=
  match i with
  -- load, store and register transfer (40_load_store_transfer.md)
  | .ldaIzx d => Sys2Proof.Machine.execLdaIzx d s
  | .ldaZp d => Sys2Proof.Machine.execLdaZp d s
  | .ldaImm d => Sys2Proof.Machine.execLdaImm d s
  | .ldaAbs a => Sys2Proof.Machine.execLdaAbs a s
  | .ldaIzy d => Sys2Proof.Machine.execLdaIzy d s
  | .ldaZpx d => Sys2Proof.Machine.execLdaZpx d s
  | .ldaAby a => Sys2Proof.Machine.execLdaAby a s
  | .ldaAbx a => Sys2Proof.Machine.execLdaAbx a s
  | .ldxImm d => Sys2Proof.Machine.execLdxImm d s
  | .ldxZp d => Sys2Proof.Machine.execLdxZp d s
  | .ldxAbs a => Sys2Proof.Machine.execLdxAbs a s
  | .ldxZpy d => Sys2Proof.Machine.execLdxZpy d s
  | .ldxAby a => Sys2Proof.Machine.execLdxAby a s
  | .ldyImm d => Sys2Proof.Machine.execLdyImm d s
  | .ldyZp d => Sys2Proof.Machine.execLdyZp d s
  | .ldyAbs a => Sys2Proof.Machine.execLdyAbs a s
  | .ldyZpx d => Sys2Proof.Machine.execLdyZpx d s
  | .ldyAbx a => Sys2Proof.Machine.execLdyAbx a s
  | .staIzx d => Sys2Proof.Machine.execStaIzx d s
  | .staZp d => Sys2Proof.Machine.execStaZp d s
  | .staAbs a => Sys2Proof.Machine.execStaAbs a s
  | .staIzy d => Sys2Proof.Machine.execStaIzy d s
  | .staZpx d => Sys2Proof.Machine.execStaZpx d s
  | .staAby a => Sys2Proof.Machine.execStaAby a s
  | .staAbx a => Sys2Proof.Machine.execStaAbx a s
  | .stxZp d => Sys2Proof.Machine.execStxZp d s
  | .stxAbs a => Sys2Proof.Machine.execStxAbs a s
  | .stxZpy d => Sys2Proof.Machine.execStxZpy d s
  | .styZp d => Sys2Proof.Machine.execStyZp d s
  | .styAbs a => Sys2Proof.Machine.execStyAbs a s
  | .styZpx d => Sys2Proof.Machine.execStyZpx d s
  | .tax => Sys2Proof.Machine.execTax s
  | .tay => Sys2Proof.Machine.execTay s
  | .txa => Sys2Proof.Machine.execTxa s
  | .tya => Sys2Proof.Machine.execTya s
  | .tsx => Sys2Proof.Machine.execTsx s
  | .txs => Sys2Proof.Machine.execTxs s
  -- stack (41_stack.md)
  | .pha => Sys2Proof.Machine.execPha s
  | .php => Sys2Proof.Machine.execPhp s
  | .pla => Sys2Proof.Machine.execPla s
  | .plp => Sys2Proof.Machine.execPlp s
  -- arithmetic, compare, increment, decrement (42_arithmetic.md)
  | .adcIzx d => Sys2Proof.Machine.execAdcIzx d s
  | .adcZp d => Sys2Proof.Machine.execAdcZp d s
  | .adcImm d => Sys2Proof.Machine.execAdcImm d s
  | .adcAbs a => Sys2Proof.Machine.execAdcAbs a s
  | .adcIzy d => Sys2Proof.Machine.execAdcIzy d s
  | .adcZpx d => Sys2Proof.Machine.execAdcZpx d s
  | .adcAby a => Sys2Proof.Machine.execAdcAby a s
  | .adcAbx a => Sys2Proof.Machine.execAdcAbx a s
  | .sbcIzx d => Sys2Proof.Machine.execSbcIzx d s
  | .sbcZp d => Sys2Proof.Machine.execSbcZp d s
  | .sbcImm d => Sys2Proof.Machine.execSbcImm d s
  | .sbcAbs a => Sys2Proof.Machine.execSbcAbs a s
  | .sbcIzy d => Sys2Proof.Machine.execSbcIzy d s
  | .sbcZpx d => Sys2Proof.Machine.execSbcZpx d s
  | .sbcAby a => Sys2Proof.Machine.execSbcAby a s
  | .sbcAbx a => Sys2Proof.Machine.execSbcAbx a s
  | .cmpIzx d => Sys2Proof.Machine.execCmpIzx d s
  | .cmpZp d => Sys2Proof.Machine.execCmpZp d s
  | .cmpImm d => Sys2Proof.Machine.execCmpImm d s
  | .cmpAbs a => Sys2Proof.Machine.execCmpAbs a s
  | .cmpIzy d => Sys2Proof.Machine.execCmpIzy d s
  | .cmpZpx d => Sys2Proof.Machine.execCmpZpx d s
  | .cmpAby a => Sys2Proof.Machine.execCmpAby a s
  | .cmpAbx a => Sys2Proof.Machine.execCmpAbx a s
  | .cpxImm d => Sys2Proof.Machine.execCpxImm d s
  | .cpxZp d => Sys2Proof.Machine.execCpxZp d s
  | .cpxAbs a => Sys2Proof.Machine.execCpxAbs a s
  | .cpyImm d => Sys2Proof.Machine.execCpyImm d s
  | .cpyZp d => Sys2Proof.Machine.execCpyZp d s
  | .cpyAbs a => Sys2Proof.Machine.execCpyAbs a s
  | .incZp d => Sys2Proof.Machine.execIncZp d s
  | .incAbs a => Sys2Proof.Machine.execIncAbs a s
  | .incZpx d => Sys2Proof.Machine.execIncZpx d s
  | .incAbx a => Sys2Proof.Machine.execIncAbx a s
  | .inx => Sys2Proof.Machine.execInx s
  | .iny => Sys2Proof.Machine.execIny s
  | .decZp d => Sys2Proof.Machine.execDecZp d s
  | .decAbs a => Sys2Proof.Machine.execDecAbs a s
  | .decZpx d => Sys2Proof.Machine.execDecZpx d s
  | .decAbx a => Sys2Proof.Machine.execDecAbx a s
  | .dex => Sys2Proof.Machine.execDex s
  | .dey => Sys2Proof.Machine.execDey s
  -- logic, bit test, shift, rotate (43_logic_shift.md)
  | .andIzx d => Sys2Proof.Machine.execAndIzx d s
  | .andZp d => Sys2Proof.Machine.execAndZp d s
  | .andImm d => Sys2Proof.Machine.execAndImm d s
  | .andAbs a => Sys2Proof.Machine.execAndAbs a s
  | .andIzy d => Sys2Proof.Machine.execAndIzy d s
  | .andZpx d => Sys2Proof.Machine.execAndZpx d s
  | .andAby a => Sys2Proof.Machine.execAndAby a s
  | .andAbx a => Sys2Proof.Machine.execAndAbx a s
  | .oraIzx d => Sys2Proof.Machine.execOraIzx d s
  | .oraZp d => Sys2Proof.Machine.execOraZp d s
  | .oraImm d => Sys2Proof.Machine.execOraImm d s
  | .oraAbs a => Sys2Proof.Machine.execOraAbs a s
  | .oraIzy d => Sys2Proof.Machine.execOraIzy d s
  | .oraZpx d => Sys2Proof.Machine.execOraZpx d s
  | .oraAby a => Sys2Proof.Machine.execOraAby a s
  | .oraAbx a => Sys2Proof.Machine.execOraAbx a s
  | .eorIzx d => Sys2Proof.Machine.execEorIzx d s
  | .eorZp d => Sys2Proof.Machine.execEorZp d s
  | .eorImm d => Sys2Proof.Machine.execEorImm d s
  | .eorAbs a => Sys2Proof.Machine.execEorAbs a s
  | .eorIzy d => Sys2Proof.Machine.execEorIzy d s
  | .eorZpx d => Sys2Proof.Machine.execEorZpx d s
  | .eorAby a => Sys2Proof.Machine.execEorAby a s
  | .eorAbx a => Sys2Proof.Machine.execEorAbx a s
  | .bitZp d => Sys2Proof.Machine.execBitZp d s
  | .bitAbs a => Sys2Proof.Machine.execBitAbs a s
  | .aslZp d => Sys2Proof.Machine.execAslZp d s
  | .aslAcc => Sys2Proof.Machine.execAslAcc s
  | .aslAbs a => Sys2Proof.Machine.execAslAbs a s
  | .aslZpx d => Sys2Proof.Machine.execAslZpx d s
  | .aslAbx a => Sys2Proof.Machine.execAslAbx a s
  | .lsrZp d => Sys2Proof.Machine.execLsrZp d s
  | .lsrAcc => Sys2Proof.Machine.execLsrAcc s
  | .lsrAbs a => Sys2Proof.Machine.execLsrAbs a s
  | .lsrZpx d => Sys2Proof.Machine.execLsrZpx d s
  | .lsrAbx a => Sys2Proof.Machine.execLsrAbx a s
  | .rolZp d => Sys2Proof.Machine.execRolZp d s
  | .rolAcc => Sys2Proof.Machine.execRolAcc s
  | .rolAbs a => Sys2Proof.Machine.execRolAbs a s
  | .rolZpx d => Sys2Proof.Machine.execRolZpx d s
  | .rolAbx a => Sys2Proof.Machine.execRolAbx a s
  | .rorZp d => Sys2Proof.Machine.execRorZp d s
  | .rorAcc => Sys2Proof.Machine.execRorAcc s
  | .rorAbs a => Sys2Proof.Machine.execRorAbs a s
  | .rorZpx d => Sys2Proof.Machine.execRorZpx d s
  | .rorAbx a => Sys2Proof.Machine.execRorAbx a s
  -- branches, jumps, call and return (44_control_transfer.md)
  | .bpl d => Sys2Proof.Machine.execBpl d s
  | .bmi d => Sys2Proof.Machine.execBmi d s
  | .bvc d => Sys2Proof.Machine.execBvc d s
  | .bvs d => Sys2Proof.Machine.execBvs d s
  | .bcc d => Sys2Proof.Machine.execBcc d s
  | .bcs d => Sys2Proof.Machine.execBcs d s
  | .bne d => Sys2Proof.Machine.execBne d s
  | .beq d => Sys2Proof.Machine.execBeq d s
  | .jmpAbs a => Sys2Proof.Machine.execJmpAbs a s
  | .jsr a => Sys2Proof.Machine.execJsr a s
  | .jmpInd a => Sys2Proof.Machine.execJmpInd a s
  | .rts => Sys2Proof.Machine.execRts s
  -- flags, NOP, BRK, RTI (45_flags_system.md)
  | .clc => Sys2Proof.Machine.execClc s
  | .sec => Sys2Proof.Machine.execSec s
  | .cli => Sys2Proof.Machine.execCli s
  | .sei => Sys2Proof.Machine.execSei s
  | .clv => Sys2Proof.Machine.execClv s
  | .cld => Sys2Proof.Machine.execCld s
  | .sed => Sys2Proof.Machine.execSed s
  | .nop => Sys2Proof.Machine.execNop s
  | .brk => Sys2Proof.Machine.execBrk s
  | .rti => Sys2Proof.Machine.execRti s
  -- undocumented (46_undocumented.md)
  | .dopZp04 d => Sys2Proof.Machine.execDopZp04 d s
  | .dopZpx14 d => Sys2Proof.Machine.execDopZpx14 d s
  | .dopZpx34 d => Sys2Proof.Machine.execDopZpx34 d s
  | .dopZp44 d => Sys2Proof.Machine.execDopZp44 d s
  | .dopZpx54 d => Sys2Proof.Machine.execDopZpx54 d s
  | .dopZp64 d => Sys2Proof.Machine.execDopZp64 d s
  | .dopZpx74 d => Sys2Proof.Machine.execDopZpx74 d s
  | .dopImm80 d => Sys2Proof.Machine.execDopImm80 d s
  | .dopImm82 d => Sys2Proof.Machine.execDopImm82 d s
  | .dopImm89 d => Sys2Proof.Machine.execDopImm89 d s
  | .dopImmC2 d => Sys2Proof.Machine.execDopImmC2 d s
  | .dopZpxD4 d => Sys2Proof.Machine.execDopZpxD4 d s
  | .dopImmE2 d => Sys2Proof.Machine.execDopImmE2 d s
  | .dopZpxF4 d => Sys2Proof.Machine.execDopZpxF4 d s
  | .topAbs a => Sys2Proof.Machine.execTopAbs a s
  | .topAbx1C a => Sys2Proof.Machine.execTopAbx1C a s
  | .topAbx3C a => Sys2Proof.Machine.execTopAbx3C a s
  | .topAbx5C a => Sys2Proof.Machine.execTopAbx5C a s
  | .topAbx7C a => Sys2Proof.Machine.execTopAbx7C a s
  | .topAbxDC a => Sys2Proof.Machine.execTopAbxDC a s
  | .topAbxFC a => Sys2Proof.Machine.execTopAbxFC a s
  | .laxIzx d => Sys2Proof.Machine.execLaxIzx d s
  | .laxZp d => Sys2Proof.Machine.execLaxZp d s
  | .laxAbs a => Sys2Proof.Machine.execLaxAbs a s
  | .laxIzy d => Sys2Proof.Machine.execLaxIzy d s
  | .laxZpy d => Sys2Proof.Machine.execLaxZpy d s
  | .laxAby a => Sys2Proof.Machine.execLaxAby a s
  | .aaxIzx d => Sys2Proof.Machine.execAaxIzx d s
  | .aaxZp d => Sys2Proof.Machine.execAaxZp d s
  | .aaxAbs a => Sys2Proof.Machine.execAaxAbs a s
  | .aaxZpy d => Sys2Proof.Machine.execAaxZpy d s
  | .sloIzx d => Sys2Proof.Machine.execSloIzx d s
  | .sloZp d => Sys2Proof.Machine.execSloZp d s
  | .sloAbs a => Sys2Proof.Machine.execSloAbs a s
  | .sloIzy d => Sys2Proof.Machine.execSloIzy d s
  | .sloZpx d => Sys2Proof.Machine.execSloZpx d s
  | .sloAby a => Sys2Proof.Machine.execSloAby a s
  | .sloAbx a => Sys2Proof.Machine.execSloAbx a s
  | .rlaIzx d => Sys2Proof.Machine.execRlaIzx d s
  | .rlaZp d => Sys2Proof.Machine.execRlaZp d s
  | .rlaAbs a => Sys2Proof.Machine.execRlaAbs a s
  | .rlaIzy d => Sys2Proof.Machine.execRlaIzy d s
  | .rlaZpx d => Sys2Proof.Machine.execRlaZpx d s
  | .rlaAby a => Sys2Proof.Machine.execRlaAby a s
  | .rlaAbx a => Sys2Proof.Machine.execRlaAbx a s
  | .sreIzx d => Sys2Proof.Machine.execSreIzx d s
  | .sreZp d => Sys2Proof.Machine.execSreZp d s
  | .sreAbs a => Sys2Proof.Machine.execSreAbs a s
  | .sreIzy d => Sys2Proof.Machine.execSreIzy d s
  | .sreZpx d => Sys2Proof.Machine.execSreZpx d s
  | .sreAby a => Sys2Proof.Machine.execSreAby a s
  | .sreAbx a => Sys2Proof.Machine.execSreAbx a s
  | .rraIzx d => Sys2Proof.Machine.execRraIzx d s
  | .rraZp d => Sys2Proof.Machine.execRraZp d s
  | .rraAbs a => Sys2Proof.Machine.execRraAbs a s
  | .rraIzy d => Sys2Proof.Machine.execRraIzy d s
  | .rraZpx d => Sys2Proof.Machine.execRraZpx d s
  | .rraAby a => Sys2Proof.Machine.execRraAby a s
  | .rraAbx a => Sys2Proof.Machine.execRraAbx a s
  | .dcpIzx d => Sys2Proof.Machine.execDcpIzx d s
  | .dcpZp d => Sys2Proof.Machine.execDcpZp d s
  | .dcpAbs a => Sys2Proof.Machine.execDcpAbs a s
  | .dcpIzy d => Sys2Proof.Machine.execDcpIzy d s
  | .dcpZpx d => Sys2Proof.Machine.execDcpZpx d s
  | .dcpAby a => Sys2Proof.Machine.execDcpAby a s
  | .dcpAbx a => Sys2Proof.Machine.execDcpAbx a s
  | .iscIzx d => Sys2Proof.Machine.execIscIzx d s
  | .iscZp d => Sys2Proof.Machine.execIscZp d s
  | .iscAbs a => Sys2Proof.Machine.execIscAbs a s
  | .iscIzy d => Sys2Proof.Machine.execIscIzy d s
  | .iscZpx d => Sys2Proof.Machine.execIscZpx d s
  | .iscAby a => Sys2Proof.Machine.execIscAby a s
  | .iscAbx a => Sys2Proof.Machine.execIscAbx a s
  | .nop1A => Sys2Proof.Machine.execNop1A s
  | .nop3A => Sys2Proof.Machine.execNop3A s
  | .nop5A => Sys2Proof.Machine.execNop5A s
  | .nop7A => Sys2Proof.Machine.execNop7A s
  | .nopDA => Sys2Proof.Machine.execNopDA s
  | .nopFA => Sys2Proof.Machine.execNopFA s
  | .sbcImmEB d => Sys2Proof.Machine.execSbcImmEB d s
  -- the 25 bytes without a meaning
  | .unassigned op => Sys2Proof.Machine.execUnassigned op s

end Sys2Proof.Machine
end

