-- ==== Sys2Proof/WellFormed.lean ====
section
/-! DEFINITION. Well-formed instructions. The operand types already bound every operand of an assigned row, so the one
thing to check is that `unassigned op` names one of the 25 bytes of 30_encoding.md R83. -/

namespace Sys2Proof

/-- The 25 unassigned opcode bytes (30_encoding.md R83). -/
def unassignedOpcodes : List Byte :=
  [0x02#8, 0x12#8, 0x22#8, 0x32#8, 0x42#8, 0x52#8, 0x62#8, 0x72#8, 0x92#8, 0xB2#8, 0xD2#8, 0xF2#8]
    ++ [0x0B#8, 0x2B#8, 0x4B#8, 0x6B#8, 0x8B#8, 0xAB#8, 0xCB#8]
    ++ [0x93#8, 0x9F#8, 0x9B#8, 0x9C#8, 0x9E#8, 0xBB#8]

/-- Whether an instruction is one the decoder can give. -/
def Instr.wf (i : Instr) : Bool :=
  match i with
  | .unassigned op => unassignedOpcodes.contains op
  | .brk | .oraIzx _ | .sloIzx _ | .dopZp04 _ | .oraZp _ | .aslZp _ | .sloZp _ | .php | .oraImm _ | .aslAcc
  | .topAbs _ | .oraAbs _ | .aslAbs _ | .sloAbs _ | .bpl _ | .oraIzy _ | .sloIzy _ | .dopZpx14 _ | .oraZpx _
  | .aslZpx _ | .sloZpx _ | .clc | .oraAby _ | .nop1A | .sloAby _ | .topAbx1C _ | .oraAbx _ | .aslAbx _
  | .sloAbx _ | .jsr _ | .andIzx _ | .rlaIzx _ | .bitZp _ | .andZp _ | .rolZp _ | .rlaZp _ | .plp | .andImm _
  | .rolAcc | .bitAbs _ | .andAbs _ | .rolAbs _ | .rlaAbs _ | .bmi _ | .andIzy _ | .rlaIzy _ | .dopZpx34 _
  | .andZpx _ | .rolZpx _ | .rlaZpx _ | .sec | .andAby _ | .nop3A | .rlaAby _ | .topAbx3C _ | .andAbx _
  | .rolAbx _ | .rlaAbx _ | .rti | .eorIzx _ | .sreIzx _ | .dopZp44 _ | .eorZp _ | .lsrZp _ | .sreZp _ | .pha
  | .eorImm _ | .lsrAcc | .jmpAbs _ | .eorAbs _ | .lsrAbs _ | .sreAbs _ | .bvc _ | .eorIzy _ | .sreIzy _
  | .dopZpx54 _ | .eorZpx _ | .lsrZpx _ | .sreZpx _ | .cli | .eorAby _ | .nop5A | .sreAby _ | .topAbx5C _
  | .eorAbx _ | .lsrAbx _ | .sreAbx _ | .rts | .adcIzx _ | .rraIzx _ | .dopZp64 _ | .adcZp _ | .rorZp _
  | .rraZp _ | .pla | .adcImm _ | .rorAcc | .jmpInd _ | .adcAbs _ | .rorAbs _ | .rraAbs _ | .bvs _ | .adcIzy _
  | .rraIzy _ | .dopZpx74 _ | .adcZpx _ | .rorZpx _ | .rraZpx _ | .sei | .adcAby _ | .nop7A | .rraAby _
  | .topAbx7C _ | .adcAbx _ | .rorAbx _ | .rraAbx _ | .dopImm80 _ | .staIzx _ | .dopImm82 _ | .aaxIzx _
  | .styZp _ | .staZp _ | .stxZp _ | .aaxZp _ | .dey | .dopImm89 _ | .txa | .styAbs _ | .staAbs _ | .stxAbs _
  | .aaxAbs _ | .bcc _ | .staIzy _ | .styZpx _ | .staZpx _ | .stxZpy _ | .aaxZpy _ | .tya | .staAby _ | .txs
  | .staAbx _ | .ldyImm _ | .ldaIzx _ | .ldxImm _ | .laxIzx _ | .ldyZp _ | .ldaZp _ | .ldxZp _ | .laxZp _ | .tay
  | .ldaImm _ | .tax | .ldyAbs _ | .ldaAbs _ | .ldxAbs _ | .laxAbs _ | .bcs _ | .ldaIzy _ | .laxIzy _
  | .ldyZpx _ | .ldaZpx _ | .ldxZpy _ | .laxZpy _ | .clv | .ldaAby _ | .tsx | .ldyAbx _ | .ldaAbx _ | .ldxAby _
  | .laxAby _ | .cpyImm _ | .cmpIzx _ | .dopImmC2 _ | .dcpIzx _ | .cpyZp _ | .cmpZp _ | .decZp _ | .dcpZp _
  | .iny | .cmpImm _ | .dex | .cpyAbs _ | .cmpAbs _ | .decAbs _ | .dcpAbs _ | .bne _ | .cmpIzy _ | .dcpIzy _
  | .dopZpxD4 _ | .cmpZpx _ | .decZpx _ | .dcpZpx _ | .cld | .cmpAby _ | .nopDA | .dcpAby _ | .topAbxDC _
  | .cmpAbx _ | .decAbx _ | .dcpAbx _ | .cpxImm _ | .sbcIzx _ | .dopImmE2 _ | .iscIzx _ | .cpxZp _ | .sbcZp _
  | .incZp _ | .iscZp _ | .inx | .sbcImm _ | .nop | .sbcImmEB _ | .cpxAbs _ | .sbcAbs _ | .incAbs _ | .iscAbs _
  | .beq _ | .sbcIzy _ | .iscIzy _ | .dopZpxF4 _ | .sbcZpx _ | .incZpx _ | .iscZpx _ | .sed | .sbcAby _ | .nopFA
  | .iscAby _ | .topAbxFC _ | .sbcAbx _ | .incAbx _ | .iscAbx _ => true

end Sys2Proof
end

