-- ==== Sys2Proof/Decode.lean ====
section
/-! DEFINITION. The decoder, total on any bytes (30_encoding.md R70 to R72, R83, R85), and the encoder written from the
same table. -/

namespace Sys2Proof

open Sys2Proof.Machine

/-- What the opcode byte says of the rest of the instruction (30_encoding.md R70). -/
inductive Shape where
  /-- format F1: no operand byte -/
  | implied (i : Instr)
  /-- format F2: one operand byte -/
  | byte (f : Byte → Instr)
  /-- format F3: low byte, then high byte of an address -/
  | word (f : Addr → Instr)

/-- Row 0x of the opcode map (30_encoding.md R85). -/
def opcodeRow0 : List Shape :=
  [.implied .brk, .byte .oraIzx, .implied (.unassigned 0x02#8), .byte .sloIzx,
   .byte .dopZp04, .byte .oraZp, .byte .aslZp, .byte .sloZp,
   .implied .php, .byte .oraImm, .implied .aslAcc, .implied (.unassigned 0x0B#8),
   .word .topAbs, .word .oraAbs, .word .aslAbs, .word .sloAbs]

/-- Row 1x of the opcode map (30_encoding.md R85). -/
def opcodeRow1 : List Shape :=
  [.byte .bpl, .byte .oraIzy, .implied (.unassigned 0x12#8), .byte .sloIzy,
   .byte .dopZpx14, .byte .oraZpx, .byte .aslZpx, .byte .sloZpx,
   .implied .clc, .word .oraAby, .implied .nop1A, .word .sloAby,
   .word .topAbx1C, .word .oraAbx, .word .aslAbx, .word .sloAbx]

/-- Row 2x of the opcode map (30_encoding.md R85). -/
def opcodeRow2 : List Shape :=
  [.word .jsr, .byte .andIzx, .implied (.unassigned 0x22#8), .byte .rlaIzx,
   .byte .bitZp, .byte .andZp, .byte .rolZp, .byte .rlaZp,
   .implied .plp, .byte .andImm, .implied .rolAcc, .implied (.unassigned 0x2B#8),
   .word .bitAbs, .word .andAbs, .word .rolAbs, .word .rlaAbs]

/-- Row 3x of the opcode map (30_encoding.md R85). -/
def opcodeRow3 : List Shape :=
  [.byte .bmi, .byte .andIzy, .implied (.unassigned 0x32#8), .byte .rlaIzy,
   .byte .dopZpx34, .byte .andZpx, .byte .rolZpx, .byte .rlaZpx,
   .implied .sec, .word .andAby, .implied .nop3A, .word .rlaAby,
   .word .topAbx3C, .word .andAbx, .word .rolAbx, .word .rlaAbx]

/-- Row 4x of the opcode map (30_encoding.md R85). -/
def opcodeRow4 : List Shape :=
  [.implied .rti, .byte .eorIzx, .implied (.unassigned 0x42#8), .byte .sreIzx,
   .byte .dopZp44, .byte .eorZp, .byte .lsrZp, .byte .sreZp,
   .implied .pha, .byte .eorImm, .implied .lsrAcc, .implied (.unassigned 0x4B#8),
   .word .jmpAbs, .word .eorAbs, .word .lsrAbs, .word .sreAbs]

/-- Row 5x of the opcode map (30_encoding.md R85). -/
def opcodeRow5 : List Shape :=
  [.byte .bvc, .byte .eorIzy, .implied (.unassigned 0x52#8), .byte .sreIzy,
   .byte .dopZpx54, .byte .eorZpx, .byte .lsrZpx, .byte .sreZpx,
   .implied .cli, .word .eorAby, .implied .nop5A, .word .sreAby,
   .word .topAbx5C, .word .eorAbx, .word .lsrAbx, .word .sreAbx]

/-- Row 6x of the opcode map (30_encoding.md R85). -/
def opcodeRow6 : List Shape :=
  [.implied .rts, .byte .adcIzx, .implied (.unassigned 0x62#8), .byte .rraIzx,
   .byte .dopZp64, .byte .adcZp, .byte .rorZp, .byte .rraZp,
   .implied .pla, .byte .adcImm, .implied .rorAcc, .implied (.unassigned 0x6B#8),
   .word .jmpInd, .word .adcAbs, .word .rorAbs, .word .rraAbs]

/-- Row 7x of the opcode map (30_encoding.md R85). -/
def opcodeRow7 : List Shape :=
  [.byte .bvs, .byte .adcIzy, .implied (.unassigned 0x72#8), .byte .rraIzy,
   .byte .dopZpx74, .byte .adcZpx, .byte .rorZpx, .byte .rraZpx,
   .implied .sei, .word .adcAby, .implied .nop7A, .word .rraAby,
   .word .topAbx7C, .word .adcAbx, .word .rorAbx, .word .rraAbx]

/-- Row 8x of the opcode map (30_encoding.md R85). -/
def opcodeRow8 : List Shape :=
  [.byte .dopImm80, .byte .staIzx, .byte .dopImm82, .byte .aaxIzx,
   .byte .styZp, .byte .staZp, .byte .stxZp, .byte .aaxZp,
   .implied .dey, .byte .dopImm89, .implied .txa, .implied (.unassigned 0x8B#8),
   .word .styAbs, .word .staAbs, .word .stxAbs, .word .aaxAbs]

/-- Row 9x of the opcode map (30_encoding.md R85). -/
def opcodeRow9 : List Shape :=
  [.byte .bcc, .byte .staIzy, .implied (.unassigned 0x92#8), .implied (.unassigned 0x93#8),
   .byte .styZpx, .byte .staZpx, .byte .stxZpy, .byte .aaxZpy,
   .implied .tya, .word .staAby, .implied .txs, .implied (.unassigned 0x9B#8),
   .implied (.unassigned 0x9C#8), .word .staAbx, .implied (.unassigned 0x9E#8), .implied (.unassigned 0x9F#8)]

/-- Row Ax of the opcode map (30_encoding.md R85). -/
def opcodeRowA : List Shape :=
  [.byte .ldyImm, .byte .ldaIzx, .byte .ldxImm, .byte .laxIzx,
   .byte .ldyZp, .byte .ldaZp, .byte .ldxZp, .byte .laxZp,
   .implied .tay, .byte .ldaImm, .implied .tax, .implied (.unassigned 0xAB#8),
   .word .ldyAbs, .word .ldaAbs, .word .ldxAbs, .word .laxAbs]

/-- Row Bx of the opcode map (30_encoding.md R85). -/
def opcodeRowB : List Shape :=
  [.byte .bcs, .byte .ldaIzy, .implied (.unassigned 0xB2#8), .byte .laxIzy,
   .byte .ldyZpx, .byte .ldaZpx, .byte .ldxZpy, .byte .laxZpy,
   .implied .clv, .word .ldaAby, .implied .tsx, .implied (.unassigned 0xBB#8),
   .word .ldyAbx, .word .ldaAbx, .word .ldxAby, .word .laxAby]

/-- Row Cx of the opcode map (30_encoding.md R85). -/
def opcodeRowC : List Shape :=
  [.byte .cpyImm, .byte .cmpIzx, .byte .dopImmC2, .byte .dcpIzx,
   .byte .cpyZp, .byte .cmpZp, .byte .decZp, .byte .dcpZp,
   .implied .iny, .byte .cmpImm, .implied .dex, .implied (.unassigned 0xCB#8),
   .word .cpyAbs, .word .cmpAbs, .word .decAbs, .word .dcpAbs]

/-- Row Dx of the opcode map (30_encoding.md R85). -/
def opcodeRowD : List Shape :=
  [.byte .bne, .byte .cmpIzy, .implied (.unassigned 0xD2#8), .byte .dcpIzy,
   .byte .dopZpxD4, .byte .cmpZpx, .byte .decZpx, .byte .dcpZpx,
   .implied .cld, .word .cmpAby, .implied .nopDA, .word .dcpAby,
   .word .topAbxDC, .word .cmpAbx, .word .decAbx, .word .dcpAbx]

/-- Row Ex of the opcode map (30_encoding.md R85). -/
def opcodeRowE : List Shape :=
  [.byte .cpxImm, .byte .sbcIzx, .byte .dopImmE2, .byte .iscIzx,
   .byte .cpxZp, .byte .sbcZp, .byte .incZp, .byte .iscZp,
   .implied .inx, .byte .sbcImm, .implied .nop, .byte .sbcImmEB,
   .word .cpxAbs, .word .sbcAbs, .word .incAbs, .word .iscAbs]

/-- Row Fx of the opcode map (30_encoding.md R85). -/
def opcodeRowF : List Shape :=
  [.byte .beq, .byte .sbcIzy, .implied (.unassigned 0xF2#8), .byte .iscIzy,
   .byte .dopZpxF4, .byte .sbcZpx, .byte .incZpx, .byte .iscZpx,
   .implied .sed, .word .sbcAby, .implied .nopFA, .word .iscAby,
   .word .topAbxFC, .word .sbcAbx, .word .incAbx, .word .iscAbx]

/-- The flat 256-entry opcode table, row = high nibble (30_encoding.md R85). -/
def opcodeRows : List (List Shape) :=
  [opcodeRow0, opcodeRow1, opcodeRow2, opcodeRow3, opcodeRow4, opcodeRow5, opcodeRow6, opcodeRow7,
   opcodeRow8, opcodeRow9, opcodeRowA, opcodeRowB, opcodeRowC, opcodeRowD, opcodeRowE, opcodeRowF]

/-- `Decode(op)`: total on all 256 values, a lookup of the whole byte (30_encoding.md R71). The default stands for no byte. -/
def shapeOf (op : Byte) : Shape :=
  ((opcodeRows[op.toNat / 16]?.getD [])[op.toNat % 16]?).getD (.implied (.unassigned op))

/-- Why a byte sequence is no instruction: only for want of bytes. -/
inductive Reject where
  /-- there is no opcode byte -/
  | noOpcode
  /-- the bytes end inside the instruction -/
  | missingOperand (op : Byte)
  deriving DecidableEq, Repr

/-- The instruction at the head of a byte sequence, with the bytes after it. -/
def decode (bytes : List Byte) : Except Reject (Instr × List Byte) :=
  match bytes with
  | [] => .error .noOpcode
  | op :: rest =>
    match shapeOf op, rest with
    | .implied i, rest => .ok (i, rest)
    | .byte f, d :: rest => .ok (f d, rest)
    | .word f, lo :: hi :: rest => .ok (f (joinBytes hi lo), rest)
    | _, _ => .error (.missingOperand op)

/-- The bytes of an instruction, opcode first (30_encoding.md R70, R85). -/
def encode (i : Instr) : List Byte :=
  match i with
  | .brk => [0x00#8]
  | .oraIzx d => [0x01#8, d]
  | .sloIzx d => [0x03#8, d]
  | .dopZp04 d => [0x04#8, d]
  | .oraZp d => [0x05#8, d]
  | .aslZp d => [0x06#8, d]
  | .sloZp d => [0x07#8, d]
  | .php => [0x08#8]
  | .oraImm d => [0x09#8, d]
  | .aslAcc => [0x0A#8]
  | .topAbs a => [0x0C#8, lowByte a, highByte a]
  | .oraAbs a => [0x0D#8, lowByte a, highByte a]
  | .aslAbs a => [0x0E#8, lowByte a, highByte a]
  | .sloAbs a => [0x0F#8, lowByte a, highByte a]
  | .bpl d => [0x10#8, d]
  | .oraIzy d => [0x11#8, d]
  | .sloIzy d => [0x13#8, d]
  | .dopZpx14 d => [0x14#8, d]
  | .oraZpx d => [0x15#8, d]
  | .aslZpx d => [0x16#8, d]
  | .sloZpx d => [0x17#8, d]
  | .clc => [0x18#8]
  | .oraAby a => [0x19#8, lowByte a, highByte a]
  | .nop1A => [0x1A#8]
  | .sloAby a => [0x1B#8, lowByte a, highByte a]
  | .topAbx1C a => [0x1C#8, lowByte a, highByte a]
  | .oraAbx a => [0x1D#8, lowByte a, highByte a]
  | .aslAbx a => [0x1E#8, lowByte a, highByte a]
  | .sloAbx a => [0x1F#8, lowByte a, highByte a]
  | .jsr a => [0x20#8, lowByte a, highByte a]
  | .andIzx d => [0x21#8, d]
  | .rlaIzx d => [0x23#8, d]
  | .bitZp d => [0x24#8, d]
  | .andZp d => [0x25#8, d]
  | .rolZp d => [0x26#8, d]
  | .rlaZp d => [0x27#8, d]
  | .plp => [0x28#8]
  | .andImm d => [0x29#8, d]
  | .rolAcc => [0x2A#8]
  | .bitAbs a => [0x2C#8, lowByte a, highByte a]
  | .andAbs a => [0x2D#8, lowByte a, highByte a]
  | .rolAbs a => [0x2E#8, lowByte a, highByte a]
  | .rlaAbs a => [0x2F#8, lowByte a, highByte a]
  | .bmi d => [0x30#8, d]
  | .andIzy d => [0x31#8, d]
  | .rlaIzy d => [0x33#8, d]
  | .dopZpx34 d => [0x34#8, d]
  | .andZpx d => [0x35#8, d]
  | .rolZpx d => [0x36#8, d]
  | .rlaZpx d => [0x37#8, d]
  | .sec => [0x38#8]
  | .andAby a => [0x39#8, lowByte a, highByte a]
  | .nop3A => [0x3A#8]
  | .rlaAby a => [0x3B#8, lowByte a, highByte a]
  | .topAbx3C a => [0x3C#8, lowByte a, highByte a]
  | .andAbx a => [0x3D#8, lowByte a, highByte a]
  | .rolAbx a => [0x3E#8, lowByte a, highByte a]
  | .rlaAbx a => [0x3F#8, lowByte a, highByte a]
  | .rti => [0x40#8]
  | .eorIzx d => [0x41#8, d]
  | .sreIzx d => [0x43#8, d]
  | .dopZp44 d => [0x44#8, d]
  | .eorZp d => [0x45#8, d]
  | .lsrZp d => [0x46#8, d]
  | .sreZp d => [0x47#8, d]
  | .pha => [0x48#8]
  | .eorImm d => [0x49#8, d]
  | .lsrAcc => [0x4A#8]
  | .jmpAbs a => [0x4C#8, lowByte a, highByte a]
  | .eorAbs a => [0x4D#8, lowByte a, highByte a]
  | .lsrAbs a => [0x4E#8, lowByte a, highByte a]
  | .sreAbs a => [0x4F#8, lowByte a, highByte a]
  | .bvc d => [0x50#8, d]
  | .eorIzy d => [0x51#8, d]
  | .sreIzy d => [0x53#8, d]
  | .dopZpx54 d => [0x54#8, d]
  | .eorZpx d => [0x55#8, d]
  | .lsrZpx d => [0x56#8, d]
  | .sreZpx d => [0x57#8, d]
  | .cli => [0x58#8]
  | .eorAby a => [0x59#8, lowByte a, highByte a]
  | .nop5A => [0x5A#8]
  | .sreAby a => [0x5B#8, lowByte a, highByte a]
  | .topAbx5C a => [0x5C#8, lowByte a, highByte a]
  | .eorAbx a => [0x5D#8, lowByte a, highByte a]
  | .lsrAbx a => [0x5E#8, lowByte a, highByte a]
  | .sreAbx a => [0x5F#8, lowByte a, highByte a]
  | .rts => [0x60#8]
  | .adcIzx d => [0x61#8, d]
  | .rraIzx d => [0x63#8, d]
  | .dopZp64 d => [0x64#8, d]
  | .adcZp d => [0x65#8, d]
  | .rorZp d => [0x66#8, d]
  | .rraZp d => [0x67#8, d]
  | .pla => [0x68#8]
  | .adcImm d => [0x69#8, d]
  | .rorAcc => [0x6A#8]
  | .jmpInd a => [0x6C#8, lowByte a, highByte a]
  | .adcAbs a => [0x6D#8, lowByte a, highByte a]
  | .rorAbs a => [0x6E#8, lowByte a, highByte a]
  | .rraAbs a => [0x6F#8, lowByte a, highByte a]
  | .bvs d => [0x70#8, d]
  | .adcIzy d => [0x71#8, d]
  | .rraIzy d => [0x73#8, d]
  | .dopZpx74 d => [0x74#8, d]
  | .adcZpx d => [0x75#8, d]
  | .rorZpx d => [0x76#8, d]
  | .rraZpx d => [0x77#8, d]
  | .sei => [0x78#8]
  | .adcAby a => [0x79#8, lowByte a, highByte a]
  | .nop7A => [0x7A#8]
  | .rraAby a => [0x7B#8, lowByte a, highByte a]
  | .topAbx7C a => [0x7C#8, lowByte a, highByte a]
  | .adcAbx a => [0x7D#8, lowByte a, highByte a]
  | .rorAbx a => [0x7E#8, lowByte a, highByte a]
  | .rraAbx a => [0x7F#8, lowByte a, highByte a]
  | .dopImm80 d => [0x80#8, d]
  | .staIzx d => [0x81#8, d]
  | .dopImm82 d => [0x82#8, d]
  | .aaxIzx d => [0x83#8, d]
  | .styZp d => [0x84#8, d]
  | .staZp d => [0x85#8, d]
  | .stxZp d => [0x86#8, d]
  | .aaxZp d => [0x87#8, d]
  | .dey => [0x88#8]
  | .dopImm89 d => [0x89#8, d]
  | .txa => [0x8A#8]
  | .styAbs a => [0x8C#8, lowByte a, highByte a]
  | .staAbs a => [0x8D#8, lowByte a, highByte a]
  | .stxAbs a => [0x8E#8, lowByte a, highByte a]
  | .aaxAbs a => [0x8F#8, lowByte a, highByte a]
  | .bcc d => [0x90#8, d]
  | .staIzy d => [0x91#8, d]
  | .styZpx d => [0x94#8, d]
  | .staZpx d => [0x95#8, d]
  | .stxZpy d => [0x96#8, d]
  | .aaxZpy d => [0x97#8, d]
  | .tya => [0x98#8]
  | .staAby a => [0x99#8, lowByte a, highByte a]
  | .txs => [0x9A#8]
  | .staAbx a => [0x9D#8, lowByte a, highByte a]
  | .ldyImm d => [0xA0#8, d]
  | .ldaIzx d => [0xA1#8, d]
  | .ldxImm d => [0xA2#8, d]
  | .laxIzx d => [0xA3#8, d]
  | .ldyZp d => [0xA4#8, d]
  | .ldaZp d => [0xA5#8, d]
  | .ldxZp d => [0xA6#8, d]
  | .laxZp d => [0xA7#8, d]
  | .tay => [0xA8#8]
  | .ldaImm d => [0xA9#8, d]
  | .tax => [0xAA#8]
  | .ldyAbs a => [0xAC#8, lowByte a, highByte a]
  | .ldaAbs a => [0xAD#8, lowByte a, highByte a]
  | .ldxAbs a => [0xAE#8, lowByte a, highByte a]
  | .laxAbs a => [0xAF#8, lowByte a, highByte a]
  | .bcs d => [0xB0#8, d]
  | .ldaIzy d => [0xB1#8, d]
  | .laxIzy d => [0xB3#8, d]
  | .ldyZpx d => [0xB4#8, d]
  | .ldaZpx d => [0xB5#8, d]
  | .ldxZpy d => [0xB6#8, d]
  | .laxZpy d => [0xB7#8, d]
  | .clv => [0xB8#8]
  | .ldaAby a => [0xB9#8, lowByte a, highByte a]
  | .tsx => [0xBA#8]
  | .ldyAbx a => [0xBC#8, lowByte a, highByte a]
  | .ldaAbx a => [0xBD#8, lowByte a, highByte a]
  | .ldxAby a => [0xBE#8, lowByte a, highByte a]
  | .laxAby a => [0xBF#8, lowByte a, highByte a]
  | .cpyImm d => [0xC0#8, d]
  | .cmpIzx d => [0xC1#8, d]
  | .dopImmC2 d => [0xC2#8, d]
  | .dcpIzx d => [0xC3#8, d]
  | .cpyZp d => [0xC4#8, d]
  | .cmpZp d => [0xC5#8, d]
  | .decZp d => [0xC6#8, d]
  | .dcpZp d => [0xC7#8, d]
  | .iny => [0xC8#8]
  | .cmpImm d => [0xC9#8, d]
  | .dex => [0xCA#8]
  | .cpyAbs a => [0xCC#8, lowByte a, highByte a]
  | .cmpAbs a => [0xCD#8, lowByte a, highByte a]
  | .decAbs a => [0xCE#8, lowByte a, highByte a]
  | .dcpAbs a => [0xCF#8, lowByte a, highByte a]
  | .bne d => [0xD0#8, d]
  | .cmpIzy d => [0xD1#8, d]
  | .dcpIzy d => [0xD3#8, d]
  | .dopZpxD4 d => [0xD4#8, d]
  | .cmpZpx d => [0xD5#8, d]
  | .decZpx d => [0xD6#8, d]
  | .dcpZpx d => [0xD7#8, d]
  | .cld => [0xD8#8]
  | .cmpAby a => [0xD9#8, lowByte a, highByte a]
  | .nopDA => [0xDA#8]
  | .dcpAby a => [0xDB#8, lowByte a, highByte a]
  | .topAbxDC a => [0xDC#8, lowByte a, highByte a]
  | .cmpAbx a => [0xDD#8, lowByte a, highByte a]
  | .decAbx a => [0xDE#8, lowByte a, highByte a]
  | .dcpAbx a => [0xDF#8, lowByte a, highByte a]
  | .cpxImm d => [0xE0#8, d]
  | .sbcIzx d => [0xE1#8, d]
  | .dopImmE2 d => [0xE2#8, d]
  | .iscIzx d => [0xE3#8, d]
  | .cpxZp d => [0xE4#8, d]
  | .sbcZp d => [0xE5#8, d]
  | .incZp d => [0xE6#8, d]
  | .iscZp d => [0xE7#8, d]
  | .inx => [0xE8#8]
  | .sbcImm d => [0xE9#8, d]
  | .nop => [0xEA#8]
  | .sbcImmEB d => [0xEB#8, d]
  | .cpxAbs a => [0xEC#8, lowByte a, highByte a]
  | .sbcAbs a => [0xED#8, lowByte a, highByte a]
  | .incAbs a => [0xEE#8, lowByte a, highByte a]
  | .iscAbs a => [0xEF#8, lowByte a, highByte a]
  | .beq d => [0xF0#8, d]
  | .sbcIzy d => [0xF1#8, d]
  | .iscIzy d => [0xF3#8, d]
  | .dopZpxF4 d => [0xF4#8, d]
  | .sbcZpx d => [0xF5#8, d]
  | .incZpx d => [0xF6#8, d]
  | .iscZpx d => [0xF7#8, d]
  | .sed => [0xF8#8]
  | .sbcAby a => [0xF9#8, lowByte a, highByte a]
  | .nopFA => [0xFA#8]
  | .iscAby a => [0xFB#8, lowByte a, highByte a]
  | .topAbxFC a => [0xFC#8, lowByte a, highByte a]
  | .sbcAbx a => [0xFD#8, lowByte a, highByte a]
  | .incAbx a => [0xFE#8, lowByte a, highByte a]
  | .iscAbx a => [0xFF#8, lowByte a, highByte a]
  | .unassigned op => [op]

/-- The length of an instruction in bytes (30_encoding.md R73). -/
def Instr.length (i : Instr) : Nat := (encode i).length

/-- The three bytes of an instruction whose bits are `w`, its first byte in bits 7:0; bits from `nbits` on are 0. -/
def tableBytes (nbits w : Nat) : List Byte :=
  let v := w % 2 ^ nbits
  [BitVec.ofNat 8 v, BitVec.ofNat 8 (v / 256), BitVec.ofNat 8 (v / 65536)]

/-- The instruction the decoder reads from an instruction whose bits are `w`. -/
def decodeTableWord (nbits w : Nat) : Option Instr :=
  match decode (tableBytes nbits w) with
  | .ok (i, _) => some i
  | .error _ => none

end Sys2Proof
end

