-- ==== Sys2Proof/Machine/Fetch.lean ====
section
/-! DEFINITION. Reading the bytes of the next instruction (30_encoding.md R70 to R75, R90; 20_memory.md R50, R59), and
placing bytes where they are fetched from. -/

namespace Sys2Proof.Machine

/-- The fetch half of the instruction step (30_encoding.md R90): the opcode, then the operand bytes its mode calls for,
each read from the Bus when it is asked for, PC one further for each; the operand byte of an immediate DOP is such a read,
its only one (46_undocumented.md R211, D19). -/
def State.fetchInstr (s : State) : Instr × State :=
  let (op, s) := s.fetch8
  match shapeOf op with
  | .implied i => (i, s)
  | .byte f =>
    let (d, s) := s.fetch8
    (f d, s)
  | .word f =>
    let (lo, s) := s.fetch8
    let (hi, s) := s.fetch8
    (f (joinBytes hi lo), s)

/-- Whether an address is a byte of RAM, PRG-RAM or PRG-ROM. -/
def isStored (a : Addr) : Bool := decide (a.toNat < 0x2000) || decide (0x6000 ≤ a.toNat)

/-- Put a byte into the memory behind an address, ROM included, from outside the machine. -/
def State.place (a : Addr) (b : Byte) (s : State) : State :=
  if a.toNat < 0x2000 then { s with ram := s.ram.write (a &&& 0x07FF#16).toNat b }
  else if 0x8000 ≤ a.toNat then { s with cart := { s.cart with prgRom := s.cart.prgRom.write (s.cart.prgLocation a) b } }
  else if 0x6000 ≤ a.toNat then { s with cart := { s.cart with prgRam := s.cart.prgRam.write (a.toNat - 0x6000) b } }
  else s

/-- Put bytes at consecutive addresses. -/
def State.placeBytes : Addr → List Byte → State → State
  | _, [], s => s
  | a, b :: rest, s => State.placeBytes (a + 1#16) rest (s.place a b)

/-- Where the three bytes of a placed instruction go: at PC, or in RAM where PC names no memory. -/
def State.placeAddress (s : State) : Addr :=
  if isStored s.pc && isStored (s.pc + 1#16) && isStored (s.pc + 2#16) then s.pc else 0x0200#16

end Sys2Proof.Machine
end

