-- ==== Sys2Proof/Machine/PpuClock.lean ====
section
/-! DEFINITION. The PPU's scanline and cycle machine: position, background and sprite pipelines, compositing and the
frame buffer (61_ppu.md R261, R270, R275 to R288). -/

namespace Sys2Proof.Machine

/-- "Rendering enabled" (61_ppu.md R261). -/
def Ppu.rendering (p : Ppu) : Bool := p.mask.getLsbD 3 || p.mask.getLsbD 4

/-- `LineLength()` (61_ppu.md R275): the odd-frame skip of the pre-render scanline. -/
def Ppu.lineLength (layout : Config.PpuLayout) (p : Ppu) : Nat :=
  if p.scanline = layout.preLine ∧ p.oddFrame ∧ p.rendering then 340 else 341

/-- The first half of `PpuTick()` (61_ppu.md R275): advance the position. -/
def Ppu.advance (layout : Config.PpuLayout) (p : Ppu) : Ppu :=
  if p.cycle + 1 < p.lineLength layout then { p with cycle := p.cycle + 1 }
  else if p.scanline + 1 = 262 then { p with cycle := 0, scanline := 0, oddFrame := !p.oddFrame }
  else { p with cycle := 0, scanline := p.scanline + 1 }

/-- `IncrementCoarseX()` (61_ppu.md R282). -/
def incrementCoarseX (v : BitVec 15) : BitVec 15 :=
  if v &&& 0x001F#15 = 0x001F#15 then (v &&& 0x7FE0#15) ^^^ 0x0400#15 else v + 1#15

/-- `IncrementY()` (61_ppu.md R282). -/
def incrementY (v : BitVec 15) : BitVec 15 :=
  if v &&& 0x7000#15 ≠ 0x7000#15 then v + 0x1000#15
  else
    let coarse := v &&& 0x03E0#15
    if coarse = 0x03A0#15 then (v &&& 0x0C1F#15) ^^^ 0x0800#15
    else if coarse = 0x03E0#15 then v &&& 0x0C1F#15
    else (v &&& 0x0FFF#15) + 0x0020#15

/-- `CopyHorizontal()` (61_ppu.md R282). -/
def copyHorizontal (t v : BitVec 15) : BitVec 15 := (v &&& 0x7BE0#15) ||| (t &&& 0x041F#15)

/-- The vertical copy of cycle 304 (61_ppu.md R276): `v[14:11]` and `v[9:5]`. -/
def copyVertical (t v : BitVec 15) : BitVec 15 := (v &&& 0x041F#15) ||| (t &&& 0x7BE0#15)

/-- Steps 1 and 2 of the background pipeline at cycle `c` (61_ppu.md R281): shift, then reload, the pre-render scanline
included (DEDUCED, log entry 12). -/
def Ppu.shiftBackground (c : Nat) (p : Ppu) : Ppu :=
  let p :=
    if (2 ≤ c ∧ c ≤ 257) ∨ (322 ≤ c ∧ c ≤ 337) then
      { p with bgLo := p.bgLo <<< 1, bgHi := p.bgHi <<< 1, atLo := p.atLo <<< 1, atHi := p.atHi <<< 1 }
    else p
  if (9 ≤ c ∧ c ≤ 257 ∧ c % 8 = 1) ∨ c = 329 ∨ c = 337 then
    { p with
      bgLo := (p.bgLo &&& 0xFF00#16) ||| p.ptLoLatch.setWidth 16
      bgHi := (p.bgHi &&& 0xFF00#16) ||| p.ptHiLatch.setWidth 16
      atLo := (p.atLo &&& 0xFF00#16) ||| (if p.atLatch.getLsbD 0 then 0x00FF#16 else 0x0000#16)
      atHi := (p.atHi &&& 0xFF00#16) ||| (if p.atLatch.getLsbD 1 then 0x00FF#16 else 0x0000#16) }
  else p

/-- The address of the nametable fetch (61_ppu.md R281). -/
def Ppu.nametableAddress (p : Ppu) : PpuAddr := 0x2000#14 ||| (p.v &&& 0x0FFF#15).setWidth 14

/-- The address of the attribute fetch (61_ppu.md R281). -/
def Ppu.attributeAddress (p : Ppu) : PpuAddr :=
  0x23C0#14 ||| (p.v &&& 0x0C00#15).setWidth 14 ||| ((p.v >>> 4) &&& 0x0038#15).setWidth 14
    ||| ((p.v >>> 2) &&& 0x0007#15).setWidth 14

/-- The two attribute bits of the tile under `v` in attribute byte `b` (61_ppu.md R281). -/
def Ppu.attributeBits (p : Ppu) (b : Byte) : BitVec 2 :=
  (b >>> (((p.v >>> 4) &&& 4#15) ||| (p.v &&& 2#15)).toNat).setWidth 2

/-- The address of the low pattern fetch (61_ppu.md R281); the high one is 8 further. -/
def Ppu.patternAddress (p : Ppu) : PpuAddr :=
  ((bitOf (p.ctrl.getLsbD 4)).setWidth 14 <<< 12) ||| (p.ntLatch.setWidth 14 <<< 4) ||| (p.v >>> 12).setWidth 14

/-- Step 4 of the background pipeline at cycle `c` (61_ppu.md R281): the fetch of the tile phase. -/
def State.fetchBackground (c : Nat) (s : State) : State :=
  if (1 ≤ c ∧ c ≤ 256) ∨ (321 ≤ c ∧ c ≤ 336) then
    match c % 8 with
    | 1 =>
      let a := s.ppu.nametableAddress
      let s' := s.touchPpu a
      { s' with ppu := { s.ppu with ntLatch := s.peekPpu a } }
    | 3 =>
      let a := s.ppu.attributeAddress
      let s' := s.touchPpu a
      { s' with ppu := { s.ppu with atLatch := s.ppu.attributeBits (s.peekPpu a) } }
    | 5 =>
      let a := s.ppu.patternAddress
      let s' := s.touchPpu a
      { s' with ppu := { s.ppu with ptLoLatch := s.peekPpu a } }
    | 7 =>
      let a := s.ppu.patternAddress ||| 8#14
      let s' := s.touchPpu a
      { s' with ppu := { s.ppu with ptHiLatch := s.peekPpu a } }
    | 0 => { s with ppu := { s.ppu with v := incrementCoarseX s.ppu.v } }
    | _ => s
  else s

/-- The height of a sprite (61_ppu.md R283). -/
def Ppu.spriteHeight (p : Ppu) : Nat := if p.ctrl.getLsbD 5 then 16 else 8

/-- The loop of `EvaluateSprites()` (61_ppu.md R283) over the `k` sprites from number `n` on, with the sprites found so
far: the secondary list and whether a ninth was met. -/
def evaluateFrom (oam : Memory) (row height : Nat) : Nat → Nat → List SecondarySprite → List SecondarySprite × Bool
  | 0, _, found => (found, false)
  | k + 1, n, found =>
    let y := oam.read (4 * n)
    if y.toNat ≤ row ∧ row < y.toNat + height then
      if found.length < 8 then
        evaluateFrom oam row height k (n + 1) <|
          found ++ [{ y := y, tile := oam.read (4 * n + 1), attr := oam.read (4 * n + 2), x := oam.read (4 * n + 3),
                      isZero := n == 0, line := BitVec.ofNat 4 (row - y.toNat) }]
      else (found, true)
    else evaluateFrom oam row height k (n + 1) found

/-- `EvaluateSprites()` on screen row `row` (61_ppu.md R283). -/
def Ppu.evaluateSprites (row : Nat) (p : Ppu) : Ppu :=
  let (found, ninth) := evaluateFrom p.oam row p.spriteHeight 64 0 []
  { p with secondary := found, status := if ninth then p.status ||| 0x20#8 else p.status }

/-- The address of the low pattern byte of a sprite (61_ppu.md R284), in 16-bit arithmetic, which agrees with the
rule's integers on the 14 bits an address has (DEDUCED, log entry 17). -/
def Ppu.spriteAddress (p : Ppu) (e : SecondarySprite) : PpuAddr :=
  let line : BitVec 16 := e.line.setWidth 16
  let tile : BitVec 16 := e.tile.setWidth 16
  if p.ctrl.getLsbD 5 then
    let l := if e.attr.getLsbD 7 then 15#16 - line else line
    (((tile &&& 1#16) <<< 12) ||| (((tile &&& 0xFE#16) ||| (l >>> 3)) <<< 4) ||| (l &&& 7#16)).setWidth 14
  else
    let l := if e.attr.getLsbD 7 then 7#16 - line else line
    (((bitOf (p.ctrl.getLsbD 3)).setWidth 16 <<< 12) ||| (tile <<< 4) ||| l).setWidth 14

/-- The address of the dummy fetch of an unused slot, tile 0xFF (61_ppu.md R284). -/
def Ppu.dummyAddress (p : Ppu) : PpuAddr :=
  if p.ctrl.getLsbD 5 then 0x1FF0#14 else ((bitOf (p.ctrl.getLsbD 3)).setWidth 14 <<< 12) ||| 0x0FF0#14

/-- The two CHR accesses of one slot of `FetchSprites()` (61_ppu.md R284). -/
def State.touchPair (a : PpuAddr) (s : State) : State := (s.touchPpu a).touchPpu (a ||| 8#14)

/-- The slot a sprite is fetched into (61_ppu.md R284). -/
def State.spriteSlot (s : State) (e : SecondarySprite) : SpriteSlot :=
  let a := s.ppu.spriteAddress e
  let lo := s.peekPpu a
  let hi := (s.touchPpu a).peekPpu (a ||| 8#14)
  if e.attr.getLsbD 6 then { x := e.x, attr := e.attr, lo := reverseByte lo, hi := reverseByte hi, isZero := e.isZero }
  else { x := e.x, attr := e.attr, lo := lo, hi := hi, isZero := e.isZero }

/-- The loop of `FetchSprites()` (61_ppu.md R284) over the last `k` slots, the sprites left for them given. -/
def fetchSlots : Nat → List SecondarySprite → State → List SpriteSlot × State
  | 0, _, s => ([], s)
  | k + 1, [], s => fetchSlots k [] (s.touchPair s.ppu.dummyAddress)
  | k + 1, e :: rest, s =>
    let (slots, s') := fetchSlots k rest (s.touchPair (s.ppu.spriteAddress e))
    (s.spriteSlot e :: slots, s')

/-- `FetchSprites()` (61_ppu.md R284). -/
def State.fetchSprites (s : State) : State :=
  let (slots, s') := fetchSlots 8 s.ppu.secondary s
  { s' with ppu := { s'.ppu with slots := slots } }

/-- The first slot, in slot order, with an opaque pixel at column `x`, and that pixel (61_ppu.md R285). -/
def spriteAt (x : Nat) : List SpriteSlot → Option (BitVec 2 × SpriteSlot)
  | [] => none
  | slot :: rest =>
    if slot.x.toNat ≤ x ∧ x ≤ slot.x.toNat + 7 then
      let bit := 7 - (x - slot.x.toNat)
      let pattern : BitVec 2 := BitVec.ofBool (slot.hi.getLsbD bit) ++ BitVec.ofBool (slot.lo.getLsbD bit)
      if pattern = 0#2 then spriteAt x rest else some (pattern, slot)
    else spriteAt x rest

/-- The background pixel at the head of the shift registers: the pattern bits and the palette (61_ppu.md R285). -/
def Ppu.backgroundAt (p : Ppu) (x : Nat) : BitVec 2 × BitVec 2 :=
  if p.mask.getLsbD 3 && (decide (8 ≤ x) || p.mask.getLsbD 1) then
    let bit := 15 - p.fineX.toNat
    (BitVec.ofBool (p.bgHi.getLsbD bit) ++ BitVec.ofBool (p.bgLo.getLsbD bit),
      BitVec.ofBool (p.atHi.getLsbD bit) ++ BitVec.ofBool (p.atLo.getLsbD bit))
  else (0#2, 0#2)

/-- The winning sprite pixel at column `x`, if sprites show there (61_ppu.md R285). -/
def Ppu.spriteAt (p : Ppu) (x : Nat) : Option (BitVec 2 × SpriteSlot) :=
  if p.mask.getLsbD 4 && (decide (8 ≤ x) || p.mask.getLsbD 2) then Sys2Proof.Machine.spriteAt x p.slots else none

/-- The palette entry `Pixel(x)` shows (61_ppu.md R285). -/
def Ppu.pixelEntry (p : Ppu) (x : Nat) : Nat :=
  let (bg, bgPalette) := p.backgroundAt x
  let background := (bgPalette ++ bg).toNat
  match p.spriteAt x with
  | none => if bg = 0#2 then 0 else background
  | some (sp, slot) =>
    if bg = 0#2 ∨ !slot.attr.getLsbD 5 then palIndex (1#1 ++ slot.attr.extractLsb' 0 2 ++ sp) else background

/-- The sprite-zero hit of `Pixel(x)` (61_ppu.md R285, R286). -/
def Ppu.spriteZeroHit (p : Ppu) (x : Nat) : Bool :=
  match p.spriteAt x with
  | none => false
  | some (_, slot) => (p.backgroundAt x).1 != 0#2 && slot.isZero && decide (x ≤ 254)

/-- `line_buffer[x] <- Pixel(x)` (61_ppu.md R277, R285). -/
def Ppu.drawPixel (x : Nat) (p : Ppu) : Ppu :=
  { p with
    lineBuffer := Sparse.write 0#6 p.lineBuffer x ((p.palette.read (p.pixelEntry x)).setWidth 6)
    status := if p.spriteZeroHit x then p.status ||| 0x40#8 else p.status }

/-- The line buffer as frame-buffer entries (61_ppu.md R287). -/
def Ppu.renderedRow (p : Ppu) : List Pixel :=
  (List.range 256).map fun x =>
    let i := Sparse.read 0#6 p.lineBuffer x
    { index := if p.mask.getLsbD 0 then i &&& 0x30#6 else i, emphasis := p.mask.extractLsb' 5 3 }

/-- The flush of screen row `row` at the line end (61_ppu.md R277, R287); row 239 completes the frame (R288). -/
def Ppu.flushRow (row : Nat) (p : Ppu) : Ppu :=
  { p with
    frameBuffer := Sparse.write blankRow p.frameBuffer row p.renderedRow
    frameReady := p.frameReady || row == 239 }

/-- The frame buffer as the video sink receives it: `frame_buffer[row][x]` in RGB (61_ppu.md R287). -/
def Ppu.rgbAt (p : Ppu) (row x : Nat) : Config.Rgb :=
  let pixel := (Sparse.read blankRow p.frameBuffer row).getD x { index := 0#6, emphasis := 0#3 }
  Config.paletteRgb pixel.index pixel.emphasis

/-- Work of the VBlank-start scanline (61_ppu.md R270). -/
def State.vblankWork (s : State) : State :=
  if s.ppu.cycle = 0 then
    { s with
      ppu := { s.ppu with
        status := if s.ppu.vblankLock then s.ppu.status else s.ppu.status ||| 0x80#8
        vblankLock := false } }
  else if s.ppu.cycle = 2 then
    { s with pending := mergeIf (s.ppu.status.getLsbD 7 && s.ppu.ctrl.getLsbD 7) .nmi s.pending }
  else s

/-- The stepping of `v` and the sprite fetch that both rendering scanline kinds share (61_ppu.md R276, R277). -/
def State.lineEndWork (c : Nat) (s : State) : State :=
  if c = 256 then { s with ppu := { s.ppu with v := incrementY s.ppu.v } }
  else if c = 257 then State.fetchSprites { s with ppu := { s.ppu with v := copyHorizontal s.ppu.t s.ppu.v } }
  else s

/-- Work of the pre-render scanline (61_ppu.md R276). -/
def State.preRenderWork (s : State) : State :=
  let c := s.ppu.cycle
  let s :=
    if c = 1 then { s with ppu := { s.ppu with status := s.ppu.status &&& 0x1F#8, secondary := [], slots := [] } }
    else s
  if s.ppu.rendering then
    let s := State.lineEndWork c (State.fetchBackground c { s with ppu := s.ppu.shiftBackground c })
    if c = 304 then { s with ppu := { s.ppu with v := copyVertical s.ppu.t s.ppu.v } } else s
  else s

/-- Work of a visible scanline with screen row `row` (61_ppu.md R277). -/
def State.visibleWork (row : Nat) (s : State) : State :=
  let c := s.ppu.cycle
  let on := s.ppu.rendering
  let s := if on then { s with ppu := s.ppu.shiftBackground c } else s
  let s := if 1 ≤ c ∧ c ≤ 256 then { s with ppu := s.ppu.drawPixel (c - 1) } else s
  let s := if on then s.fetchBackground c else s
  let s := if on ∧ c = 64 then { s with ppu := s.ppu.evaluateSprites row } else s
  let s := if on then s.lineEndWork c else s
  if c = 340 then { s with ppu := s.ppu.flushRow row } else s

/-- `Work(scanline, cycle)` (61_ppu.md R261, R275). -/
def State.ppuWork (s : State) : State :=
  let layout := s.params.ppuLayout
  let line := s.ppu.scanline
  if line = layout.vblLine then s.vblankWork
  else if line = layout.preLine then s.preRenderWork
  else if layout.firstVisible ≤ line ∧ line < layout.firstVisible + 240 then s.visibleWork (line - layout.firstVisible)
  else s

/-- `PpuTick()` (61_ppu.md R275). -/
def State.ppuTick (s : State) : State := State.ppuWork { s with ppu := s.ppu.advance s.params.ppuLayout }

/-- `PpuStep(n)` (61_ppu.md R275). -/
def State.ppuStep : Nat → State → State
  | 0, s => s
  | n + 1, s => State.ppuStep n s.ppuTick

end Sys2Proof.Machine
end

