-- ==== Sys2Proof/Machine/Execute.lean ====
section
/-! DEFINITION. One `ExecuteOp` of the CPU (60_exceptions.md R235, R236; 30_encoding.md R90) and one round of the whole
machine (63_cartridge_bus_driver.md R375). -/

namespace Sys2Proof.Machine

/-- The service a step owes to its pending slot: a Reset or Nmi always, an Irq only while I = 0 (60_exceptions.md R235,
R236). -/
def State.due (s : State) : Option Interrupt :=
  match s.pending with
  | some .irq => if flagI s.p then none else some .irq
  | k => k

/-- What a masked Irq becomes at a step that does not service it: `IRQ_MASKED_POLICY` (60_exceptions.md R236). -/
def State.passMasked (s : State) : State :=
  { s with
    pending :=
      match s.params.irqMasked with
      | .keep => s.pending
      | .drop => none }

/-- The instruction half of `ExecuteOp` (30_encoding.md R90). -/
def State.runInstruction (s : State) : Result :=
  let (i, t) := s.fetchInstr
  exec i t

/-- The service of interrupt `k`: the slot is cleared first (60_exceptions.md R235). -/
def State.service (k : Interrupt) (s : State) : State :=
  let s := { s with pending := none }
  match k with
  | .reset => s.serviceReset
  | .nmi => s.serviceInterrupt Config.vectorNmi
  | .irq => s.serviceInterrupt Config.vectorIrq

/-- `ExecuteOp()` (60_exceptions.md R235): one interrupt service or one instruction. -/
def State.executeOp (s : State) : Result :=
  let s := { s with cyc := 0 }
  match s.due with
  | some k => .next (s.service k)
  | none => s.passMasked.runInstruction

/-- The devices after a CPU step of `cyc` cycles: the APU by `cyc`, then the PPU by `3 * cyc`
(63_cartridge_bus_driver.md R375). -/
def State.advanceDevices (s : State) : State := State.ppuStep (3 * s.cyc) (State.apuStep s.cyc s)

/-- `Round()` (63_cartridge_bus_driver.md R375); the host acts between two rounds (DESIGN CHOICE, log entry 15). -/
def State.round (s : State) : Result :=
  match s.executeOp with
  | .next t => .next t.advanceDevices
  | .fault r => .fault r
  | .refused r => .refused r

end Sys2Proof.Machine
end

