-- ==== Sys2Proof/Machine/Step.lean ====
section
/-! DEFINITION. One step of the machine: one round of 63_cartridge_bus_driver.md R375. -/

namespace Sys2Proof.Machine

/-- One round: `ExecuteOp`, then the APU, then the PPU. -/
def step (s : State) : Host.Outcome State Fault Refusal := s.round

/-- `s` with the instruction whose bits are `w` where the next step fetches it, and no interrupt due before it. -/
def State.withFetchWord (s : State) (nbits w : Nat) : State :=
  let s := if s.due = none then s else { s with pending := none }
  let s := { s with pc := s.placeAddress }
  s.placeBytes s.pc (tableBytes nbits w)

end Sys2Proof.Machine
end

