-- ==== Sys2Proof/Machine/HostSide.lean ====
section
/-! DEFINITION. What the host does to the machine between two rounds: constructing it from a cartridge image, requesting
a Reset, capturing the buttons, taking the picture, the samples and the battery-backed RAM (63_cartridge_bus_driver.md
R350, R372, R377, R378; 70_reset_and_hazards.md R391). -/

namespace Sys2Proof.Machine

/-- What 10_state.md R30 leaves unspecified at power-on, less the memories of the cartridge image. -/
structure PowerOnContents where
  ram : Memory
  oam : Memory
  palette : Memory
  ntRam : Memory
  frameBuffer : List (Nat × List Pixel)
  deriving DecidableEq, Repr

/-- The initial state of a run with any parameters (00_scope.md R4), cartridge and power-on contents
(70_reset_and_hazards.md R391). -/
def State.powerOn (q : Config.Params) (image : CartridgeImage) (u : PowerOnContents) : State :=
  { State.reset with
    params := q
    a := q.resetA
    x := q.resetX
    y := q.resetY
    sp := q.resetS
    p := q.resetP
    ram := u.ram
    ppu := { Ppu.reset with oam := u.oam, palette := u.palette, ntRam := u.ntRam, frameBuffer := u.frameBuffer }
    cart := Cart.construct image }

/-- `Request(Reset)` of the host (63_cartridge_bus_driver.md R377). -/
def State.requestReset (s : State) : State := s.request .reset

/-- `captureState()` of both controllers (63_cartridge_bus_driver.md R372). -/
def State.captureButtons (one two : Byte) (s : State) : State :=
  { s with ports := { s.ports with captured1 := one, captured2 := two } }

/-- The host takes the finished picture, if there is one (61_ppu.md R288; 63_cartridge_bus_driver.md R378): entry
`256 * row + x` of the list is `frame_buffer[row][x]`. -/
def State.takeFrame (s : State) : Option (List Config.Rgb) × State :=
  if s.ppu.frameReady then
    (some ((List.range (240 * 256)).map fun k => s.ppu.rgbAt (k / 256) (k % 256)),
      { s with ppu := { s.ppu with frameReady := false } })
  else (none, s)

/-- The host takes the samples emitted so far, oldest first (62_apu.md R337; 63_cartridge_bus_driver.md R378). -/
def State.takeSamples (s : State) : List AudioSample × State :=
  (s.apu.samples.reverse, { s with apu := { s.apu with samples := [] } })

/-- The host takes the contents of a battery-backed PRG-RAM, byte 0 first; a cartridge without a battery hands out
nothing (63_cartridge_bus_driver.md R350, R378). It comes back as the `prgRam` of a later image. -/
def State.savedRam (s : State) : Option (List Byte) :=
  if s.cart.battery then some ((List.range 8192).map s.cart.prgRam.read) else none

end Sys2Proof.Machine
end

