-- ==== Sys2Proof/Safety.lean ====
section
/-! DEFINITION. The terms the claims are stated in: what an instruction may leave changed, the encodings of each
instruction rule as lists of forms, integer readings of the flags, and the invariants of a run. Nothing of the machine is
defined through this file. -/

namespace Sys2Proof.Machine

/-! ## Registers, flags and what lies outside the CPU -/

/-- The CPU registers other than PC and P. -/
inductive CpuReg where
  | a
  | x
  | y
  | sp
  deriving DecidableEq, Repr

/-- The value of a register. -/
def State.reg (s : State) : CpuReg → Byte
  | .a => s.a
  | .x => s.x
  | .y => s.y
  | .sp => s.sp

/-- `t` has the pending slot, memories, devices, parameters and draw counter of `s`: all of the state but the CPU's
registers, PC and cycle count. -/
def SameOutside (s t : State) : Prop :=
  t.pending = s.pending ∧ t.ram = s.ram ∧ t.ppu = s.ppu ∧ t.apu = s.apu ∧ t.cart = s.cart ∧ t.ports = s.ports
    ∧ t.params = s.params ∧ t.dmaDraws = s.dmaDraws

/-- From `s` to `t` the CPU kept PC, every register but `regs` and every bit of P but those numbered in `flags`; outside
the CPU, `t` is `u`. -/
def Leaves (regs : List CpuReg) (flags : List Nat) (s u t : State) : Prop :=
  (∀ r, r ∉ regs → t.reg r = s.reg r) ∧ (∀ i, i ∉ flags → t.p.getLsbD i = s.p.getLsbD i) ∧ t.pc = s.pc
    ∧ SameOutside u t

/-- `SetNZ(v)` was done: N is bit 7 of `v`, and Z is 1 exactly when `v` is 0 (00_scope.md R7). -/
def ShowsNZ (v : Byte) (t : State) : Prop := flagN t.p = v.getLsbD 7 ∧ (flagZ t.p = true ↔ v = 0#8)

/-- ADC and SBC compute in binary: decimal mode is absent or not selected (42_arithmetic.md R131). -/
def State.InBinary (s : State) : Prop := s.params.decimalEnable = false ∨ flagD s.p = false

/-- The carry flag as a number. -/
def State.carryIn (s : State) : Nat := (flagC s.p).toNat

/-- The flags and the result `r` of the binary sum of `a`, `m` and the carry `c`, in integers (42_arithmetic.md R130): C
says that the unsigned sum does not fit in 8 bits, V that the signed one lies outside −128..127. -/
def IsBinarySum (a m : Byte) (c : Nat) (r p : Byte) : Prop :=
  r.toNat = (a.toNat + m.toNat + c) % 256
    ∧ (flagC p = true ↔ 255 < a.toNat + m.toNat + c)
    ∧ (flagV p = true ↔ a.toInt + m.toInt + c < -128 ∨ 127 < a.toInt + m.toInt + c)

/-- The flags and the result `r` of the binary difference of `a` and `m` with borrow `1 - c`, in integers
(42_arithmetic.md R133): C says that no borrow occurred, V that the signed difference lies outside −128..127. -/
def IsBinaryDifference (a m : Byte) (c : Nat) (r p : Byte) : Prop :=
  (r.toNat : Int) = ((a.toNat : Int) - m.toNat - (1 - c)) % 256
    ∧ (flagC p = true ↔ 0 ≤ (a.toNat : Int) - m.toNat - (1 - c))
    ∧ (flagV p = true ↔ a.toInt - m.toInt - (1 - c) < -128 ∨ 127 < a.toInt - m.toInt - (1 - c))

/-- A and the four flags are those of an adder result. -/
def ShowsAlu (r : AluResult) (t : State) : Prop :=
  t.a = r.value ∧ flagC t.p = r.carry ∧ flagV t.p = r.overflow ∧ flagN t.p = r.negative ∧ flagZ t.p = r.zero

/-- `Adc(m)` with carry-in `c` took `s` to a state whose A and flags are those of `t` (42_arithmetic.md R130 to R132). -/
def State.Added (s : State) (c : Bool) (m : Byte) (t : State) : Prop :=
  (s.InBinary → IsBinarySum s.a m c.toNat t.a t.p ∧ ShowsNZ t.a t)
    ∧ (¬ s.InBinary → ShowsAlu (decimalSum s.params s.a m c) t)

/-- `Sbc(m)` with carry-in `c` took `s` to a state whose A and flags are those of `t` (42_arithmetic.md R131, R133). -/
def State.Subtracted (s : State) (c : Bool) (m : Byte) (t : State) : Prop :=
  (s.InBinary → IsBinaryDifference s.a m c.toNat t.a t.p ∧ ShowsNZ t.a t)
    ∧ (¬ s.InBinary → ShowsAlu (decimalDifference s.params s.a m c) t)

/-- `Compare(r, m)` was done (42_arithmetic.md R134): C is the unsigned comparison, Z equality, N bit 7 of the wrapped
difference. -/
def ShowsCompare (r m : Byte) (t : State) : Prop :=
  (flagC t.p = true ↔ m.toNat ≤ r.toNat) ∧ (flagZ t.p = true ↔ r = m)
    ∧ (flagN t.p = true ↔ 128 ≤ (r.toNat + 256 - m.toNat) % 256)

/-- What each shift does to a byte and the carry, in integers (43_logic_shift.md R155). -/
def IsAsl (v : Byte) (r : Byte × Bool) : Prop := r.1.toNat = 2 * v.toNat % 256 ∧ (r.2 = true ↔ 128 ≤ v.toNat)

/-- See `IsAsl`. -/
def IsLsr (v : Byte) (r : Byte × Bool) : Prop := r.1.toNat = v.toNat / 2 ∧ (r.2 = true ↔ v.toNat % 2 = 1)

/-- See `IsAsl`. -/
def IsRol (v : Byte) (c : Bool) (r : Byte × Bool) : Prop :=
  r.1.toNat = (2 * v.toNat + c.toNat) % 256 ∧ (r.2 = true ↔ 128 ≤ v.toNat)

/-- See `IsAsl`. -/
def IsRor (v : Byte) (c : Bool) (r : Byte × Bool) : Prop :=
  r.1.toNat = v.toNat / 2 + 128 * c.toNat ∧ (r.2 = true ↔ v.toNat % 2 = 1)

/-- A byte whose two digits are decimal. -/
def IsBcd (b : Byte) : Prop := b.toNat % 16 ≤ 9 ∧ b.toNat / 16 ≤ 9

/-- The number a byte of two decimal digits writes. -/
def bcdValue (b : Byte) : Nat := b.toNat / 16 * 10 + b.toNat % 16

/-! ## Memory seen one byte at a time -/

/-- Whether an address names a device register whose read can change (20_memory.md R50): a PPU register, $4015, a
controller port. -/
def isDevice (a : Addr) : Bool :=
  match region a with
  | .ppu _ | .apuStatus | .port1 | .port2 => true
  | .ram _ | .apuChannel _ | .oamDma | .unmapped | .cartridge => false

/-- Whether a READ of `w` may change what a later read of `b` returns (20_memory.md R50): only a register with a read
side effect changes, and only itself. -/
def readChanges (w b : Addr) : Bool :=
  match region w with
  | .ppu r => (r == 2#3 || r == 7#3) && region b == .ppu r
  | .apuStatus => b == 0x4015#16
  | .port1 => b == 0x4016#16
  | .port2 => b == 0x4017#16
  | .ram _ | .apuChannel _ | .oamDma | .unmapped | .cartridge => false

/-- Whether a WRITE of `w` may change what a later read of `b` returns: the mirrors of a RAM byte (20_memory.md R46), the
byte itself in PRG-RAM, the ROM window of a mapper register (R51), and the registers of the device written to. -/
def writeChanges (w b : Addr) : Bool :=
  match region w with
  | .ram k => region b == .ram k
  | .ppu _ => match region b with | .ppu _ => true | _ => false
  | .apuChannel _ | .apuStatus => b == 0x4015#16
  | .oamDma => isDevice b
  | .port1 => b == 0x4016#16 || b == 0x4017#16
  | .port2 => b == 0x4015#16
  | .unmapped => false
  | .cartridge =>
    if 0x8000 ≤ w.toNat then decide (0x8000 ≤ b.toNat) else if 0x6000 ≤ w.toNat then b == w else false

/-- `k` reads in order from address `a` on: the bytes and the state after them. -/
def readBytes : Nat → Addr → State → List Byte × State
  | 0, _, s => ([], s)
  | k + 1, a, s =>
    let (b, s) := s.memRead a
    let (rest, s) := readBytes k (a + 1#16) s
    (b :: rest, s)

/-- The stack slots of the next `n` pushes are not what a read of `b` sees. -/
def OffStack (n : Nat) (s : State) (b : Addr) : Prop :=
  ∀ k, k < n → writeChanges (stackAddress (s.sp - BitVec.ofNat 8 k)) b = false

/-- Taking an exception (45_flags_system.md R204, 60_exceptions.md R238): the return address and the copy of P stand on
the stack, S is 3 lower, I is set, PC is the vector's, and nothing else changed, the byte slots of the stack apart. -/
def EntersThrough (vector ret : Addr) (pushed : Byte) (s t : State) : Prop :=
  t.peek (stackAddress s.sp) = highByte ret ∧ t.peek (stackAddress (s.sp - 1#8)) = lowByte ret
    ∧ t.peek (stackAddress (s.sp - 2#8)) = pushed ∧ t.sp = s.sp - 3#8 ∧ flagI t.p = true
    ∧ t.pc = joinBytes (s.peek (vector + 1#16)) (s.peek vector)
    ∧ Leaves [.sp] [2] s { s with ram := t.ram } { t with pc := s.pc }
    ∧ ∀ b, OffStack 3 s b → t.peek b = s.peek b

/-- The first byte of an instruction. -/
def opcodeOf (i : Instr) : Byte := (encode i).headD 0x00#8

/-! ## Operands and forms -/

/-- The operand of a reading instruction (30_encoding.md R92). -/
def Source.value (o : Source) (s : State) : Byte :=
  match o with
  | .imm d => d
  | .mem o => s.peek (o.address s)

/-- The machine after that operand is read. -/
def Source.after (o : Source) (s : State) : State :=
  match o with
  | .imm _ => s
  | .mem o => s.touch (o.address s)

/-- Whether the operand's address crosses a page (30_encoding.md R79, R82, R91). -/
def Source.crosses (o : Source) (s : State) : Bool :=
  match o with
  | .imm _ => false
  | .mem o => o.crossed s

/-- One encoding of a reading instruction: opcode, instruction, operand, base cycles. -/
structure ReadForm where
  opcode : Byte
  instr : Instr
  operand : Source
  cycles : Nat

/-- One encoding of an instruction that stores to memory. -/
structure MemForm where
  opcode : Byte
  instr : Instr
  operand : MemOperand
  cycles : Nat

/-- The cycles of a reading form: one more when its address crosses a page (30_encoding.md R91). -/
def ReadForm.cost (f : ReadForm) (s : State) : Nat := f.cycles + (f.operand.crosses s).toNat

/-- The instruction's first byte is the opcode the rule gives it. -/
def ReadForm.Encoded (f : ReadForm) : Prop := (encode f.instr).head? = some f.opcode

/-- See `ReadForm.Encoded`. -/
def MemForm.Encoded (f : MemForm) : Prop := (encode f.instr).head? = some f.opcode

/-- The machine after a storing form has stored `v`, without a read. -/
def MemForm.stored (f : MemForm) (v : Byte) (s : State) : State := (s.memWrite (f.operand.address s) v).1

/-- The stall cycles that store reports (20_memory.md R52). -/
def MemForm.stall (f : MemForm) (v : Byte) (s : State) : Nat := (s.memWrite (f.operand.address s) v).2

/-- The byte a read-modify-write form reads. -/
def MemForm.value (f : MemForm) (s : State) : Byte := s.peek (f.operand.address s)

/-- The machine after a read-modify-write form has read its operand and stored `v` back. -/
def MemForm.modified (f : MemForm) (v : Byte) (s : State) : State :=
  ((s.touch (f.operand.address s)).memWrite (f.operand.address s) v).1

/-- The stall cycles of that store. -/
def MemForm.modifyStall (f : MemForm) (v : Byte) (s : State) : Nat :=
  ((s.touch (f.operand.address s)).memWrite (f.operand.address s) v).2

/-- Encodings of LDA (R101). -/
def ldaForms (d : Byte) (a : Addr) : List ReadForm :=
  [⟨0xA9#8, .ldaImm d, .imm d, 2⟩,
   ⟨0xA5#8, .ldaZp d, .mem (.zp d), 3⟩,
   ⟨0xB5#8, .ldaZpx d, .mem (.zpx d), 4⟩,
   ⟨0xAD#8, .ldaAbs a, .mem (.abs a), 4⟩,
   ⟨0xBD#8, .ldaAbx a, .mem (.abx a), 4⟩,
   ⟨0xB9#8, .ldaAby a, .mem (.aby a), 4⟩,
   ⟨0xA1#8, .ldaIzx d, .mem (.izx d), 6⟩,
   ⟨0xB1#8, .ldaIzy d, .mem (.izy d), 5⟩]

/-- Encodings of LDX (R102). -/
def ldxForms (d : Byte) (a : Addr) : List ReadForm :=
  [⟨0xA2#8, .ldxImm d, .imm d, 2⟩,
   ⟨0xA6#8, .ldxZp d, .mem (.zp d), 3⟩,
   ⟨0xB6#8, .ldxZpy d, .mem (.zpy d), 4⟩,
   ⟨0xAE#8, .ldxAbs a, .mem (.abs a), 4⟩,
   ⟨0xBE#8, .ldxAby a, .mem (.aby a), 4⟩]

/-- Encodings of LDY (R103). -/
def ldyForms (d : Byte) (a : Addr) : List ReadForm :=
  [⟨0xA0#8, .ldyImm d, .imm d, 2⟩,
   ⟨0xA4#8, .ldyZp d, .mem (.zp d), 3⟩,
   ⟨0xB4#8, .ldyZpx d, .mem (.zpx d), 4⟩,
   ⟨0xAC#8, .ldyAbs a, .mem (.abs a), 4⟩,
   ⟨0xBC#8, .ldyAbx a, .mem (.abx a), 4⟩]

/-- Encodings of LAX (R213). -/
def laxForms (d : Byte) (a : Addr) : List ReadForm :=
  [⟨0xA7#8, .laxZp d, .mem (.zp d), 3⟩,
   ⟨0xB7#8, .laxZpy d, .mem (.zpy d), 4⟩,
   ⟨0xAF#8, .laxAbs a, .mem (.abs a), 4⟩,
   ⟨0xBF#8, .laxAby a, .mem (.aby a), 4⟩,
   ⟨0xA3#8, .laxIzx d, .mem (.izx d), 6⟩,
   ⟨0xB3#8, .laxIzy d, .mem (.izy d), 5⟩]

/-- Encodings of ADC (R132). -/
def adcForms (d : Byte) (a : Addr) : List ReadForm :=
  [⟨0x69#8, .adcImm d, .imm d, 2⟩,
   ⟨0x65#8, .adcZp d, .mem (.zp d), 3⟩,
   ⟨0x75#8, .adcZpx d, .mem (.zpx d), 4⟩,
   ⟨0x6D#8, .adcAbs a, .mem (.abs a), 4⟩,
   ⟨0x7D#8, .adcAbx a, .mem (.abx a), 4⟩,
   ⟨0x79#8, .adcAby a, .mem (.aby a), 4⟩,
   ⟨0x61#8, .adcIzx d, .mem (.izx d), 6⟩,
   ⟨0x71#8, .adcIzy d, .mem (.izy d), 5⟩]

/-- Encodings of SBC, with the second encoding of its immediate form (R222) (R133). -/
def sbcForms (d : Byte) (a : Addr) : List ReadForm :=
  [⟨0xE9#8, .sbcImm d, .imm d, 2⟩,
   ⟨0xE5#8, .sbcZp d, .mem (.zp d), 3⟩,
   ⟨0xF5#8, .sbcZpx d, .mem (.zpx d), 4⟩,
   ⟨0xED#8, .sbcAbs a, .mem (.abs a), 4⟩,
   ⟨0xFD#8, .sbcAbx a, .mem (.abx a), 4⟩,
   ⟨0xF9#8, .sbcAby a, .mem (.aby a), 4⟩,
   ⟨0xE1#8, .sbcIzx d, .mem (.izx d), 6⟩,
   ⟨0xF1#8, .sbcIzy d, .mem (.izy d), 5⟩,
   ⟨0xEB#8, .sbcImmEB d, .imm d, 2⟩]

/-- Encodings of CMP (R135). -/
def cmpForms (d : Byte) (a : Addr) : List ReadForm :=
  [⟨0xC9#8, .cmpImm d, .imm d, 2⟩,
   ⟨0xC5#8, .cmpZp d, .mem (.zp d), 3⟩,
   ⟨0xD5#8, .cmpZpx d, .mem (.zpx d), 4⟩,
   ⟨0xCD#8, .cmpAbs a, .mem (.abs a), 4⟩,
   ⟨0xDD#8, .cmpAbx a, .mem (.abx a), 4⟩,
   ⟨0xD9#8, .cmpAby a, .mem (.aby a), 4⟩,
   ⟨0xC1#8, .cmpIzx d, .mem (.izx d), 6⟩,
   ⟨0xD1#8, .cmpIzy d, .mem (.izy d), 5⟩]

/-- Encodings of CPX (R136). -/
def cpxForms (d : Byte) (a : Addr) : List ReadForm :=
  [⟨0xE0#8, .cpxImm d, .imm d, 2⟩,
   ⟨0xE4#8, .cpxZp d, .mem (.zp d), 3⟩,
   ⟨0xEC#8, .cpxAbs a, .mem (.abs a), 4⟩]

/-- Encodings of CPY (R137). -/
def cpyForms (d : Byte) (a : Addr) : List ReadForm :=
  [⟨0xC0#8, .cpyImm d, .imm d, 2⟩,
   ⟨0xC4#8, .cpyZp d, .mem (.zp d), 3⟩,
   ⟨0xCC#8, .cpyAbs a, .mem (.abs a), 4⟩]

/-- Encodings of AND (R151). -/
def andForms (d : Byte) (a : Addr) : List ReadForm :=
  [⟨0x29#8, .andImm d, .imm d, 2⟩,
   ⟨0x25#8, .andZp d, .mem (.zp d), 3⟩,
   ⟨0x35#8, .andZpx d, .mem (.zpx d), 4⟩,
   ⟨0x2D#8, .andAbs a, .mem (.abs a), 4⟩,
   ⟨0x3D#8, .andAbx a, .mem (.abx a), 4⟩,
   ⟨0x39#8, .andAby a, .mem (.aby a), 4⟩,
   ⟨0x21#8, .andIzx d, .mem (.izx d), 6⟩,
   ⟨0x31#8, .andIzy d, .mem (.izy d), 5⟩]

/-- Encodings of ORA (R152). -/
def oraForms (d : Byte) (a : Addr) : List ReadForm :=
  [⟨0x09#8, .oraImm d, .imm d, 2⟩,
   ⟨0x05#8, .oraZp d, .mem (.zp d), 3⟩,
   ⟨0x15#8, .oraZpx d, .mem (.zpx d), 4⟩,
   ⟨0x0D#8, .oraAbs a, .mem (.abs a), 4⟩,
   ⟨0x1D#8, .oraAbx a, .mem (.abx a), 4⟩,
   ⟨0x19#8, .oraAby a, .mem (.aby a), 4⟩,
   ⟨0x01#8, .oraIzx d, .mem (.izx d), 6⟩,
   ⟨0x11#8, .oraIzy d, .mem (.izy d), 5⟩]

/-- Encodings of EOR (R153). -/
def eorForms (d : Byte) (a : Addr) : List ReadForm :=
  [⟨0x49#8, .eorImm d, .imm d, 2⟩,
   ⟨0x45#8, .eorZp d, .mem (.zp d), 3⟩,
   ⟨0x55#8, .eorZpx d, .mem (.zpx d), 4⟩,
   ⟨0x4D#8, .eorAbs a, .mem (.abs a), 4⟩,
   ⟨0x5D#8, .eorAbx a, .mem (.abx a), 4⟩,
   ⟨0x59#8, .eorAby a, .mem (.aby a), 4⟩,
   ⟨0x41#8, .eorIzx d, .mem (.izx d), 6⟩,
   ⟨0x51#8, .eorIzy d, .mem (.izy d), 5⟩]

/-- Encodings of BIT (R154). -/
def bitForms (d : Byte) (a : Addr) : List ReadForm :=
  [⟨0x24#8, .bitZp d, .mem (.zp d), 3⟩,
   ⟨0x2C#8, .bitAbs a, .mem (.abs a), 4⟩]

/-- Encodings of DOP that read memory (R211). -/
def dopForms (d : Byte) (_ : Addr) : List ReadForm :=
  [⟨0x04#8, .dopZp04 d, .mem (.zp d), 3⟩,
   ⟨0x44#8, .dopZp44 d, .mem (.zp d), 3⟩,
   ⟨0x64#8, .dopZp64 d, .mem (.zp d), 3⟩,
   ⟨0x14#8, .dopZpx14 d, .mem (.zpx d), 4⟩,
   ⟨0x34#8, .dopZpx34 d, .mem (.zpx d), 4⟩,
   ⟨0x54#8, .dopZpx54 d, .mem (.zpx d), 4⟩,
   ⟨0x74#8, .dopZpx74 d, .mem (.zpx d), 4⟩,
   ⟨0xD4#8, .dopZpxD4 d, .mem (.zpx d), 4⟩,
   ⟨0xF4#8, .dopZpxF4 d, .mem (.zpx d), 4⟩]

/-- Encodings of TOP (R212). -/
def topForms (_ : Byte) (a : Addr) : List ReadForm :=
  [⟨0x0C#8, .topAbs a, .mem (.abs a), 4⟩,
   ⟨0x1C#8, .topAbx1C a, .mem (.abx a), 4⟩,
   ⟨0x3C#8, .topAbx3C a, .mem (.abx a), 4⟩,
   ⟨0x5C#8, .topAbx5C a, .mem (.abx a), 4⟩,
   ⟨0x7C#8, .topAbx7C a, .mem (.abx a), 4⟩,
   ⟨0xDC#8, .topAbxDC a, .mem (.abx a), 4⟩,
   ⟨0xFC#8, .topAbxFC a, .mem (.abx a), 4⟩]

/-- Encodings of STA (R104). -/
def staForms (d : Byte) (a : Addr) : List MemForm :=
  [⟨0x85#8, .staZp d, .zp d, 3⟩,
   ⟨0x95#8, .staZpx d, .zpx d, 4⟩,
   ⟨0x8D#8, .staAbs a, .abs a, 4⟩,
   ⟨0x9D#8, .staAbx a, .abx a, 5⟩,
   ⟨0x99#8, .staAby a, .aby a, 5⟩,
   ⟨0x81#8, .staIzx d, .izx d, 6⟩,
   ⟨0x91#8, .staIzy d, .izy d, 6⟩]

/-- Encodings of STX (R105). -/
def stxForms (d : Byte) (a : Addr) : List MemForm :=
  [⟨0x86#8, .stxZp d, .zp d, 3⟩,
   ⟨0x96#8, .stxZpy d, .zpy d, 4⟩,
   ⟨0x8E#8, .stxAbs a, .abs a, 4⟩]

/-- Encodings of STY (R106). -/
def styForms (d : Byte) (a : Addr) : List MemForm :=
  [⟨0x84#8, .styZp d, .zp d, 3⟩,
   ⟨0x94#8, .styZpx d, .zpx d, 4⟩,
   ⟨0x8C#8, .styAbs a, .abs a, 4⟩]

/-- Encodings of AAX (R214). -/
def aaxForms (d : Byte) (a : Addr) : List MemForm :=
  [⟨0x87#8, .aaxZp d, .zp d, 3⟩,
   ⟨0x97#8, .aaxZpy d, .zpy d, 4⟩,
   ⟨0x8F#8, .aaxAbs a, .abs a, 4⟩,
   ⟨0x83#8, .aaxIzx d, .izx d, 6⟩]

/-- Encodings of INC (R138). -/
def incForms (d : Byte) (a : Addr) : List MemForm :=
  [⟨0xE6#8, .incZp d, .zp d, 5⟩,
   ⟨0xF6#8, .incZpx d, .zpx d, 6⟩,
   ⟨0xEE#8, .incAbs a, .abs a, 6⟩,
   ⟨0xFE#8, .incAbx a, .abx a, 7⟩]

/-- Encodings of DEC (R141). -/
def decForms (d : Byte) (a : Addr) : List MemForm :=
  [⟨0xC6#8, .decZp d, .zp d, 5⟩,
   ⟨0xD6#8, .decZpx d, .zpx d, 6⟩,
   ⟨0xCE#8, .decAbs a, .abs a, 6⟩,
   ⟨0xDE#8, .decAbx a, .abx a, 7⟩]

/-- Encodings of ASL (R156). -/
def aslForms (d : Byte) (a : Addr) : List MemForm :=
  [⟨0x06#8, .aslZp d, .zp d, 5⟩,
   ⟨0x16#8, .aslZpx d, .zpx d, 6⟩,
   ⟨0x0E#8, .aslAbs a, .abs a, 6⟩,
   ⟨0x1E#8, .aslAbx a, .abx a, 7⟩]

/-- Encodings of LSR (R157). -/
def lsrForms (d : Byte) (a : Addr) : List MemForm :=
  [⟨0x46#8, .lsrZp d, .zp d, 5⟩,
   ⟨0x56#8, .lsrZpx d, .zpx d, 6⟩,
   ⟨0x4E#8, .lsrAbs a, .abs a, 6⟩,
   ⟨0x5E#8, .lsrAbx a, .abx a, 7⟩]

/-- Encodings of ROL (R158). -/
def rolForms (d : Byte) (a : Addr) : List MemForm :=
  [⟨0x26#8, .rolZp d, .zp d, 5⟩,
   ⟨0x36#8, .rolZpx d, .zpx d, 6⟩,
   ⟨0x2E#8, .rolAbs a, .abs a, 6⟩,
   ⟨0x3E#8, .rolAbx a, .abx a, 7⟩]

/-- Encodings of ROR (R159). -/
def rorForms (d : Byte) (a : Addr) : List MemForm :=
  [⟨0x66#8, .rorZp d, .zp d, 5⟩,
   ⟨0x76#8, .rorZpx d, .zpx d, 6⟩,
   ⟨0x6E#8, .rorAbs a, .abs a, 6⟩,
   ⟨0x7E#8, .rorAbx a, .abx a, 7⟩]

/-- Encodings of SLO (R215). -/
def sloForms (d : Byte) (a : Addr) : List MemForm :=
  [⟨0x03#8, .sloIzx d, .izx d, 8⟩,
   ⟨0x07#8, .sloZp d, .zp d, 5⟩,
   ⟨0x0F#8, .sloAbs a, .abs a, 6⟩,
   ⟨0x13#8, .sloIzy d, .izy d, 8⟩,
   ⟨0x17#8, .sloZpx d, .zpx d, 6⟩,
   ⟨0x1B#8, .sloAby a, .aby a, 7⟩,
   ⟨0x1F#8, .sloAbx a, .abx a, 7⟩]

/-- Encodings of RLA (R216). -/
def rlaForms (d : Byte) (a : Addr) : List MemForm :=
  [⟨0x23#8, .rlaIzx d, .izx d, 8⟩,
   ⟨0x27#8, .rlaZp d, .zp d, 5⟩,
   ⟨0x2F#8, .rlaAbs a, .abs a, 6⟩,
   ⟨0x33#8, .rlaIzy d, .izy d, 8⟩,
   ⟨0x37#8, .rlaZpx d, .zpx d, 6⟩,
   ⟨0x3B#8, .rlaAby a, .aby a, 7⟩,
   ⟨0x3F#8, .rlaAbx a, .abx a, 7⟩]

/-- Encodings of SRE (R217). -/
def sreForms (d : Byte) (a : Addr) : List MemForm :=
  [⟨0x43#8, .sreIzx d, .izx d, 8⟩,
   ⟨0x47#8, .sreZp d, .zp d, 5⟩,
   ⟨0x4F#8, .sreAbs a, .abs a, 6⟩,
   ⟨0x53#8, .sreIzy d, .izy d, 8⟩,
   ⟨0x57#8, .sreZpx d, .zpx d, 6⟩,
   ⟨0x5B#8, .sreAby a, .aby a, 7⟩,
   ⟨0x5F#8, .sreAbx a, .abx a, 7⟩]

/-- Encodings of RRA (R218). -/
def rraForms (d : Byte) (a : Addr) : List MemForm :=
  [⟨0x63#8, .rraIzx d, .izx d, 8⟩,
   ⟨0x67#8, .rraZp d, .zp d, 5⟩,
   ⟨0x6F#8, .rraAbs a, .abs a, 6⟩,
   ⟨0x73#8, .rraIzy d, .izy d, 8⟩,
   ⟨0x77#8, .rraZpx d, .zpx d, 6⟩,
   ⟨0x7B#8, .rraAby a, .aby a, 7⟩,
   ⟨0x7F#8, .rraAbx a, .abx a, 7⟩]

/-- Encodings of DCP (R219). -/
def dcpForms (d : Byte) (a : Addr) : List MemForm :=
  [⟨0xC3#8, .dcpIzx d, .izx d, 8⟩,
   ⟨0xC7#8, .dcpZp d, .zp d, 5⟩,
   ⟨0xCF#8, .dcpAbs a, .abs a, 6⟩,
   ⟨0xD3#8, .dcpIzy d, .izy d, 8⟩,
   ⟨0xD7#8, .dcpZpx d, .zpx d, 6⟩,
   ⟨0xDB#8, .dcpAby a, .aby a, 7⟩,
   ⟨0xDF#8, .dcpAbx a, .abx a, 7⟩]

/-- Encodings of ISC (R220). -/
def iscForms (d : Byte) (a : Addr) : List MemForm :=
  [⟨0xE3#8, .iscIzx d, .izx d, 8⟩,
   ⟨0xE7#8, .iscZp d, .zp d, 5⟩,
   ⟨0xEF#8, .iscAbs a, .abs a, 6⟩,
   ⟨0xF3#8, .iscIzy d, .izy d, 8⟩,
   ⟨0xF7#8, .iscZpx d, .zpx d, 6⟩,
   ⟨0xFB#8, .iscAby a, .aby a, 7⟩,
   ⟨0xFF#8, .iscAbx a, .abx a, 7⟩]

/-- Every form that reads an operand and stores nothing. -/
def readForms (d : Byte) (a : Addr) : List ReadForm :=
  List.flatten
    [ldaForms d a, ldxForms d a, ldyForms d a, laxForms d a, adcForms d a, sbcForms d a, cmpForms d a, cpxForms d a,
     cpyForms d a, andForms d a, oraForms d a, eorForms d a, bitForms d a, dopForms d a, topForms d a]

/-- Every form that stores without reading. -/
def storeForms (d : Byte) (a : Addr) : List MemForm :=
  List.flatten [staForms d a, stxForms d a, styForms d a, aaxForms d a]

/-- Every read-modify-write form. -/
def modifyForms (d : Byte) (a : Addr) : List MemForm :=
  List.flatten
    [incForms d a, decForms d a, aslForms d a, lsrForms d a, rolForms d a, rorForms d a, sloForms d a, rlaForms d a,
     sreForms d a, rraForms d a, dcpForms d a, iscForms d a]

/-- A one-byte instruction of two cycles that writes one register with a value and sets N and Z from it: opcode,
instruction, destination, value. -/
structure RegisterForm where
  opcode : Byte
  instr : Instr
  dest : CpuReg
  value : State → Byte

/-- The transfers that set flags (40_load_store_transfer.md R107 to R111). -/
def transferForms : List RegisterForm :=
  [⟨0xAA#8, .tax, .x, fun s => s.a⟩, ⟨0xA8#8, .tay, .y, fun s => s.a⟩, ⟨0x8A#8, .txa, .a, fun s => s.x⟩,
   ⟨0x98#8, .tya, .a, fun s => s.y⟩, ⟨0xBA#8, .tsx, .x, fun s => s.sp⟩]

/-- The register increments and decrements (42_arithmetic.md R139, R140, R142, R143): the value modulo 256. -/
def countForms : List RegisterForm :=
  [⟨0xE8#8, .inx, .x, fun s => BitVec.ofNat 8 (s.x.toNat + 1)⟩,
   ⟨0xC8#8, .iny, .y, fun s => BitVec.ofNat 8 (s.y.toNat + 1)⟩,
   ⟨0xCA#8, .dex, .x, fun s => BitVec.ofNat 8 (s.x.toNat + 255)⟩,
   ⟨0x88#8, .dey, .y, fun s => BitVec.ofNat 8 (s.y.toNat + 255)⟩]

/-- The flag instructions (45_flags_system.md R191 to R197): opcode, instruction, bit of P, value. -/
def flagForms : List (Byte × Instr × Nat × Bool) :=
  [(0x18#8, .clc, 0, false), (0x38#8, .sec, 0, true), (0x58#8, .cli, 2, false), (0x78#8, .sei, 2, true),
   (0xB8#8, .clv, 6, false), (0xD8#8, .cld, 3, false), (0xF8#8, .sed, 3, true)]

/-- The no-operations that touch no memory after their bytes are fetched (45_flags_system.md R198; 46_undocumented.md
R211, R221): opcode and instruction. -/
def idleForms (d : Byte) : List (Byte × Instr) :=
  [(0xEA#8, .nop), (0x1A#8, .nop1A), (0x3A#8, .nop3A), (0x5A#8, .nop5A), (0x7A#8, .nop7A), (0xDA#8, .nopDA),
   (0xFA#8, .nopFA), (0x80#8, .dopImm80 d), (0x82#8, .dopImm82 d), (0x89#8, .dopImm89 d), (0xC2#8, .dopImmC2 d),
   (0xE2#8, .dopImmE2 d)]

/-- The accumulator shifts (43_logic_shift.md R156 to R159): opcode, instruction, function. -/
def accumulatorShifts : List (Byte × Instr × Shift) :=
  [(0x0A#8, .aslAcc, shiftAsl), (0x4A#8, .lsrAcc, shiftLsr), (0x2A#8, .rolAcc, shiftRol), (0x6A#8, .rorAcc, shiftRor)]

/-- The memory shifts with their functions. -/
def memoryShifts (d : Byte) (a : Addr) : List (List MemForm × Shift) :=
  [(aslForms d a, shiftAsl), (lsrForms d a, shiftLsr), (rolForms d a, shiftRol), (rorForms d a, shiftRor)]

/-- The branches (44_control_transfer.md R171 to R178): opcode, instruction, the bit of P tested, the value it is tested
for. -/
def branchForms (d : Byte) : List (Byte × Instr × Nat × Bool) :=
  [(0x10#8, .bpl d, 7, false), (0x30#8, .bmi d, 7, true), (0x50#8, .bvc d, 6, false), (0x70#8, .bvs d, 6, true),
   (0x90#8, .bcc d, 0, false), (0xB0#8, .bcs d, 0, true), (0xD0#8, .bne d, 1, false), (0xF0#8, .beq d, 1, true)]

/-- The instructions that neither read nor write memory once their bytes are fetched. -/
def quietInstrs (d : Byte) (a : Addr) : List Instr :=
  List.flatten
    [[.tax, .tay, .txa, .tya, .tsx, .txs, .inx, .iny, .dex, .dey, .clc, .sec, .cli, .sei, .clv, .cld, .sed],
     [.nop, .nop1A, .nop3A, .nop5A, .nop7A, .nopDA, .nopFA, .aslAcc, .lsrAcc, .rolAcc, .rorAcc],
     [.dopImm80 d, .dopImm82 d, .dopImm89 d, .dopImmC2 d, .dopImmE2 d, .jmpAbs a],
     [.bpl d, .bmi d, .bvc d, .bvs d, .bcc d, .bcs d, .bne d, .beq d]]

/-! ## Fields of the PPU's address pair (61_ppu.md R268) -/

/-- Bits 4:0. -/
def coarseX (v : BitVec 15) : Nat := v.toNat % 32

/-- Bits 9:5. -/
def coarseY (v : BitVec 15) : Nat := v.toNat / 32 % 32

/-- Bits 11:10. -/
def nametable (v : BitVec 15) : Nat := v.toNat / 1024 % 4

/-- Bits 14:12. -/
def fineY (v : BitVec 15) : Nat := v.toNat / 4096

/-- The number of the PPU cycle `(scanline, cycle)` in a frame without the odd-frame skip. -/
def Ppu.position (p : Ppu) : Nat := 341 * p.scanline + p.cycle

/-- `NtBuffer` of the four logical nametables in each mode (63_cartridge_bus_driver.md R367). -/
def Mirroring.buffers : Mirroring → List Nat
  | .horizontal => [0, 0, 1, 1]
  | .vertical => [0, 1, 0, 1]
  | .oneScreenA => [0, 0, 0, 0]
  | .oneScreenB => [1, 1, 1, 1]
  | .fourScreen => [0, 1, 2, 3]

/-- The byte of memory behind a PPU address, as an array (0 CHR, 1 the nametable buffers, 2 the palette) and a location in
it (61_ppu.md R262, R263; 63_cartridge_bus_driver.md R354, R367). -/
def State.ppuCell (s : State) (a : PpuAddr) : Nat × Nat :=
  if a.toNat < 0x2000 then (0, 1024 * s.cart.chrSlot.toList.getD (a.toNat / 1024) 0 + a.toNat % 1024)
  else if a.toNat < 0x3F00 then
    (1, 1024 * s.cart.mirroring.buffers.getD (a.toNat / 1024 % 4) 0 + a.toNat % 1024)
  else (2, if a.toNat % 4 = 0 then a.toNat % 16 else a.toNat % 32)

/-- The background pattern bits and palette at column `x`, 0 where the layer does not show (61_ppu.md R285). -/
def Ppu.backgroundBits (p : Ppu) (x : Nat) : Nat × Nat :=
  if p.mask.getLsbD 3 ∧ (8 ≤ x ∨ p.mask.getLsbD 1) then
    let bit := 15 - p.fineX.toNat
    (2 * (p.bgHi.getLsbD bit).toNat + (p.bgLo.getLsbD bit).toNat,
      2 * (p.atHi.getLsbD bit).toNat + (p.atLo.getLsbD bit).toNat)
  else (0, 0)

/-- The pattern bits of one sprite slot at column `x` (61_ppu.md R285). -/
def SpriteSlot.bits (slot : SpriteSlot) (x : Nat) : Nat :=
  if slot.x.toNat ≤ x ∧ x ≤ slot.x.toNat + 7 then
    2 * (slot.hi.getLsbD (7 - (x - slot.x.toNat))).toNat + (slot.lo.getLsbD (7 - (x - slot.x.toNat))).toNat
  else 0

/-- The slot whose sprite wins at column `x`: the first with an opaque pixel there (61_ppu.md R285). -/
def Ppu.winner (p : Ppu) (x : Nat) : Option SpriteSlot :=
  if p.mask.getLsbD 4 ∧ (8 ≤ x ∨ p.mask.getLsbD 2) then p.slots.find? fun slot => slot.bits x != 0 else none

/-- Sprite `n` covers the row after `row` (61_ppu.md R283). -/
def Ppu.covers (p : Ppu) (row n : Nat) : Bool :=
  decide ((p.oam.read (4 * n)).toNat ≤ row ∧ row < (p.oam.read (4 * n)).toNat + if p.ctrl.getLsbD 5 then 16 else 8)

/-- Entry of the secondary list for sprite `n` (61_ppu.md R283). -/
def Ppu.spriteEntry (p : Ppu) (row n : Nat) : SecondarySprite where
  y := p.oam.read (4 * n)
  tile := p.oam.read (4 * n + 1)
  attr := p.oam.read (4 * n + 2)
  x := p.oam.read (4 * n + 3)
  isZero := decide (n = 0)
  line := BitVec.ofNat 4 (row - (p.oam.read (4 * n)).toNat)

/-- The length counters of pulse 1, pulse 2, triangle and noise, the channels of $4015 bits 0 to 3 (62_apu.md R334). -/
def Apu.counter (u : Apu) : Nat → LengthCounter
  | 0 => u.pulse1.len
  | 1 => u.pulse2.len
  | 2 => u.triangle.len
  | _ => u.noise.len

/-- The position of the frame sequencer in CPU cycles since its start, its divider's period given (62_apu.md R333). -/
def FrameSequencer.position (period : Nat) (q : FrameSequencer) : Nat := period * q.step + q.div

/-- Its length in CPU cycles. -/
def FrameSequencer.length (period : Nat) (q : FrameSequencer) : Nat := period * if q.fiveStep then 5 else 4

/-! ## Invariants -/

/-- In a flag byte of the register P, bit 5 reads 1 and bit 4 reads 0 (10_state.md R15). -/
def FlagByteOk (p : Byte) : Prop := p.getLsbD 5 = true ∧ p.getLsbD 4 = false

/-- P is a flag byte of the register, and so is the parameter `RESET_P` that a Reset loads into it. -/
def State.FlagsOk (s : State) : Prop := FlagByteOk s.p ∧ FlagByteOk s.params.resetP

/-- Every bank index lies in the range of its array (10_state.md R23, 63_cartridge_bus_driver.md R355), on a cartridge
that has a bank of PRG-ROM. -/
def Cart.BanksOk (c : Cart) : Prop :=
  1 ≤ c.prg16k ∧ (∀ i (h : i < 32), c.prgSlot[i] < c.prgBanks) ∧ ∀ i (h : i < 8), c.chrSlot[i] < c.chrBanks

/-- The cartridge's memories are in canonical form and of their sizes (63_cartridge_bus_driver.md R350, R368). -/
def Cart.MemoriesOk (c : Cart) : Prop :=
  Memory.wf (1024 * c.prgBanks) c.prgRom ∧ Memory.wf 8192 c.prgRam ∧ Memory.wf (1024 * c.chrBanks) c.chr
    ∧ Memory.wf 2048 c.ntExtra

/-- The PPU's memories are in canonical form and of their sizes (10_state.md R21). -/
def Ppu.MemoriesOk (p : Ppu) : Prop :=
  Memory.wf 256 p.oam ∧ Memory.wf 32 p.palette ∧ Memory.wf 2048 p.ntRam ∧ Sparse.wf blankRow 240 p.frameBuffer
    ∧ Sparse.wf 0#6 256 p.lineBuffer

/-- Every memory of the machine is in canonical form and of its size, and every bank index is in range. -/
def State.MemoriesOk (s : State) : Prop :=
  Memory.wf 2048 s.ram ∧ s.ppu.MemoriesOk ∧ s.cart.MemoriesOk ∧ s.cart.BanksOk

/-- The PPU's position is a cycle of a scanline of the frame (10_state.md R21), with the bound of the longest line
(DEDUCED, log entry 23). -/
def Ppu.PositionOk (p : Ppu) : Prop := p.cycle < 341 ∧ p.scanline < 262

/-- No more than eight sprites on a scanline (61_ppu.md R283, R284). -/
def Ppu.SpritesOk (p : Ppu) : Prop := p.secondary.length ≤ 8 ∧ p.slots.length ≤ 8

/-- The APU's counters stay in the ranges the parameters give them (62_apu.md R301, R318, R320, R325, R332, R333). -/
def Apu.CountersOk (q : Config.Params) (u : Apu) : Prop :=
  u.noise.lfsr ≠ 0#15 ∧ u.sampleDiv < q.sampleDivider ∧ u.frame.div < q.frameDividerPeriod
    ∧ u.frame.step < (if u.frame.fiveStep then 5 else 4) ∧ u.dmc.bitsRemaining.toNat ≤ 8

/-- No length counter is above 254 (62_apu.md R302). -/
def Apu.LengthsOk (u : Apu) : Prop := ∀ k : Fin 4, (u.counter k).count.toNat ≤ 254

/-- While a sample plays, the sample DMA reads the upper half of the CPU address space, and so it will once the sample
is started again (20_memory.md R60; the reset value of the sample address is log entry 11). -/
def Dmc.AddressesOk (d : Dmc) : Prop :=
  0x8000 ≤ d.sampleAddr.toNat ∧ (d.bytesRemaining ≠ 0#12 → 0x8000 ≤ d.curAddr.toNat)

/-- Parameters under which the invariants hold of a machine just powered on: `RESET_P` is a flag byte of the register, and
the two dividers have a period. -/
def ParamsOk (q : Config.Params) : Prop := FlagByteOk q.resetP ∧ 1 ≤ q.sampleDivider ∧ 1 ≤ q.frameDividerPeriod

/-- The write count of an MMC1's serial port (63_cartridge_bus_driver.md R359). -/
def Mapper.SerialOk (m : Mapper) : Prop :=
  match m with
  | .mmc1 r => r.srCount ≤ 4
  | .nrom | .unrom | .gxrom | .mmc3 _ => True

/-- The kind of a mapper, without its registers. -/
def Mapper.kind (m : Mapper) : MapperKind :=
  match m with
  | .nrom => .nrom
  | .unrom => .unrom
  | .gxrom => .gxrom
  | .mmc1 _ => .mmc1
  | .mmc3 _ => .mmc3

/-- What no run changes: the ROM contents, the shape of the cartridge and the parameters (10_state.md R23, 00_scope.md
R4). -/
def SameHardware (s t : State) : Prop :=
  t.cart.prgRom = s.cart.prgRom ∧ t.cart.prg16k = s.cart.prg16k ∧ t.cart.chr8k = s.cart.chr8k
    ∧ t.cart.battery = s.cart.battery ∧ t.cart.mapper.kind = s.cart.mapper.kind ∧ t.params = s.params
    ∧ (s.cart.chrIsRam = false → t.cart.chr = s.cart.chr)

/-- An image whose contents are in canonical form, and that has a bank of PRG-ROM. -/
def CartridgeImage.Ok (image : CartridgeImage) : Prop :=
  1 ≤ image.prg16k ∧ Memory.wf (16384 * image.prg16k) image.prgRom ∧ Memory.wf 8192 image.prgRam
    ∧ Memory.wf (if image.chr8k = 0 then 8192 else 8192 * image.chr8k) image.chr ∧ Memory.wf 2048 image.ntExtra

/-- Power-on contents in canonical form. -/
def PowerOnContents.Ok (u : PowerOnContents) : Prop :=
  Memory.wf 2048 u.ram ∧ Memory.wf 256 u.oam ∧ Memory.wf 32 u.palette ∧ Memory.wf 2048 u.ntRam
    ∧ Sparse.wf blankRow 240 u.frameBuffer

end Sys2Proof.Machine
end

