-- ==== Sys2Proof/Certificates/Slice0/Obligations.lean ====
section
/-! DEFINITION. The statements about this machine. A statement about an instruction is about `exec` at the state whose PC
is past the instruction's bytes; `StepRunsTheInstructionAtPc` carries it to a step. -/

open Sys2Proof Sys2Proof.Machine

/-! ## Encoding -/

/-- Decoding the bytes of any well-formed instruction gives it back with every operand, and leaves the bytes after it
(30_encoding.md R70 to R72, R85). -/
def Obligations.DecodeOfEncodeIsIdentity : Prop :=
  ∀ i : Instr, i.wf = true → ∀ rest : List Byte, decode (encode i ++ rest) = .ok (i, rest)

/-- Whatever the decoder gives is well formed, and its bytes are the ones decoded (30_encoding.md R70 to R72, R85). -/
def Obligations.EncodeOfDecodeIsIdentity : Prop :=
  ∀ (bytes : List Byte) (i : Instr) (rest : List Byte), decode bytes = .ok (i, rest) → i.wf = true ∧ bytes = encode i ++ rest

/-- Byte sequences of the spec's own examples, one or more for each family, decode to the instructions it gives them. -/
def Obligations.WordsOfTheSpecDecode : Prop :=
  decode [0xA9#8, 0x80#8] = .ok (.ldaImm 0x80#8, []) ∧ decode [0x8D#8, 0x00#8, 0x02#8] = .ok (.staAbs 0x0200#16, [])
    ∧ decode [0x69#8, 0xC0#8] = .ok (.adcImm 0xC0#8, []) ∧ decode [0xE6#8, 0x10#8] = .ok (.incZp 0x10#8, [])
    ∧ decode [0x24#8, 0x10#8] = .ok (.bitZp 0x10#8, []) ∧ decode [0x0A#8] = .ok (.aslAcc, [])
    ∧ decode [0xD0#8, 0xFE#8] = .ok (.bne 0xFE#8, []) ∧ decode [0x6C#8, 0xFF#8, 0x02#8] = .ok (.jmpInd 0x02FF#16, [])
    ∧ decode [0x48#8] = .ok (.pha, []) ∧ decode [0x00#8] = .ok (.brk, []) ∧ decode [0xEA#8] = .ok (.nop, [])
    ∧ decode [0x1C#8, 0xF0#8, 0x12#8] = .ok (.topAbx1C 0x12F0#16, []) ∧ decode [0xC7#8, 0x10#8] = .ok (.dcpZp 0x10#8, [])
    ∧ decode [0xEB#8, 0x10#8] = .ok (.sbcImmEB 0x10#8, []) ∧ decode [0x02#8] = .ok (.unassigned 0x02#8, [])

/-! ## The step -/

/-- Each of the 25 unassigned bytes decodes to `Unassigned` and its execution has no next state (30_encoding.md R83);
fetching one is the only thing a step does that is not a next state (60_exceptions.md R230). -/
def Obligations.UnassignedBytesAreRefused : Prop :=
  (∀ op ∈ unassignedOpcodes, (∀ rest : List Byte, decode (op :: rest) = .ok (.unassigned op, rest))
    ∧ ∀ s : State, exec (.unassigned op) s = .refused (.unassigned op))
  ∧ ∀ s : State, (s.due = none ∧ s.peek s.pc ∈ unassignedOpcodes ∧ step s = .refused (.unassigned (s.peek s.pc)))
    ∨ (¬ (s.due = none ∧ s.peek s.pc ∈ unassignedOpcodes) ∧ ∃ t, step s = .next t)

/-- Where the bytes read from PC on are those of a well-formed instruction and no service is due, a step is that
instruction at the state past its bytes, then the APU for the cycles it took and the PPU for three times as many. -/
def Obligations.StepRunsTheInstructionAtPc : Prop :=
  ∀ (s : State) (i : Instr) (bytes : List Byte) (u : State), i.wf = true → s.due = none →
    readBytes i.length s.pc ({ s with cyc := 0 }).passMasked = (bytes, u) → bytes = encode i →
    step s =
      match exec i { u with pc := s.pc + BitVec.ofNat 16 i.length } with
      | .next t => .next (State.ppuStep (3 * t.cyc) (State.apuStep t.cyc t))
      | .fault r => .fault r
      | .refused r => .refused r

/-! ## Interrupts and reset -/

/-- The priority-merge rule, case by case (60_exceptions.md R233). -/
def Obligations.RequestsMergeByPriority : Prop :=
  ∀ s : State, s.request .reset = { s with pending := some .reset }
    ∧ s.request .nmi = (if s.pending = some .reset then s else { s with pending := some .nmi })
    ∧ s.request .irq = (if s.pending = none then { s with pending := some .irq } else s)

/-- Nmi service, and Irq service while I = 0 (60_exceptions.md R238): three pushes with B clear, I set, the vector, 7
cycles, the slot cleared, nothing else; then the devices by 7 and 21. -/
def Obligations.NmiAndIrqAreServiced : Prop :=
  ∀ (s : State) (vector : Addr),
    (s.pending = some .nmi ∧ vector = 0xFFFA#16) ∨ (s.pending = some .irq ∧ flagI s.p = false ∧ vector = 0xFFFE#16) →
    ∃ t, step s = .next (State.ppuStep 21 (State.apuStep 7 t)) ∧ t.cyc = 7
      ∧ EntersThrough vector s.pc ((s.p &&& 0xEF#8) ||| 0x20#8) { s with pending := none } t

/-- Reset service, whatever I is (70_reset_and_hazards.md R390): the five registers as the parameters `RESET_*` give them,
PC from the vector, the slot cleared, no memory written; then the devices by `RESET_CYCLES` and three times as many. -/
def Obligations.ResetIsServiced : Prop :=
  ∀ s : State, s.pending = some .reset →
    let q := s.params
    ∃ t, step s = .next (State.ppuStep (3 * q.resetCycles) (State.apuStep q.resetCycles t))
      ∧ t.a = q.resetA ∧ t.x = q.resetX ∧ t.y = q.resetY ∧ t.sp = q.resetS ∧ t.p = q.resetP
      ∧ t.pc = joinBytes (s.peek 0xFFFD#16) (s.peek 0xFFFC#16) ∧ t.cyc = q.resetCycles
      ∧ SameOutside { s with pending := none } t

/-- The first step of every run with the parameters of this hardware, whatever the cartridge and the power-on contents
(70_reset_and_hazards.md R391; 00_scope.md R4). That `sample_div` counts from 0 is the model's choice, log entry 8. -/
def Obligations.FirstStepOfARun : Prop :=
  ∀ (image : CartridgeImage) (u : PowerOnContents),
    let s := State.powerOn Config.params image u
    s.pending = some .reset
      ∧ ∃ t, step s = .next t ∧ t.a = 0x00#8 ∧ t.x = 0x00#8 ∧ t.y = 0x00#8 ∧ t.sp = 0xFD#8 ∧ t.p = 0x24#8
        ∧ t.pc = joinBytes (s.peek 0xFFFD#16) (s.peek 0xFFFC#16) ∧ t.pending = none ∧ t.cyc = 7 ∧ t.apu.frame.div = 7
        ∧ t.apu.sampleDiv = 7 ∧ t.ppu.scanline = 0 ∧ t.ppu.cycle = 21

/-- An Irq observed with I = 1 is not serviced (60_exceptions.md R236): under `keep` it is still pending after the step,
unless an Nmi replaced it; under `drop` the step is that of a machine with an empty slot. -/
def Obligations.MaskedIrqWaits : Prop :=
  ∀ s : State, s.pending = some .irq → flagI s.p = true →
    (s.params.irqMasked = .keep → ∀ t, step s = .next t → t.pending = some .irq ∨ t.pending = some .nmi)
      ∧ (s.params.irqMasked = .drop → step s = step { s with pending := none })

/-- RTI undoes an Nmi or Irq service and a BRK: P, S and, but for the byte BRK skips, PC are as they stood, and so are A,
X and Y (60_exceptions.md R242). -/
def Obligations.ReturnUndoesTheEntry : Prop :=
  ∀ s : State, FlagByteOk s.p →
    (∀ k : Interrupt, k ≠ .reset →
      ∃ t, exec .rti (s.service k) = .next t ∧ t.p = s.p ∧ t.pc = s.pc ∧ ∀ r, t.reg r = s.reg r)
    ∧ ∃ u t, exec .brk s = .next u ∧ exec .rti u = .next t ∧ t.p = s.p ∧ t.pc = s.pc + 1#16 ∧ ∀ r, t.reg r = s.reg r

/-- BRK (45_flags_system.md R204); PC is at the byte after the opcode, so the pushed address is one further. -/
def Obligations.BrkTraps : Prop :=
  ∀ s : State, encode .brk = [0x00#8]
    ∧ ∃ t, exec .brk s = .next t ∧ t.cyc = s.cyc + 7
      ∧ EntersThrough 0xFFFE#16 (s.pc + 1#16) (s.p ||| 0x30#8) s t

/-- RTI (45_flags_system.md R205). -/
def Obligations.RtiReturns : Prop :=
  ∀ s : State, encode .rti = [0x40#8]
    ∧ ∃ t, exec .rti s = .next t
      ∧ (∀ i, i ≠ 4 → i ≠ 5 → t.p.getLsbD i = (s.peek (stackAddress (s.sp + 1#8))).getLsbD i)
      ∧ t.p.getLsbD 4 = false ∧ t.p.getLsbD 5 = true
      ∧ t.pc = joinBytes (s.peek (stackAddress (s.sp + 3#8))) (s.peek (stackAddress (s.sp + 2#8)))
      ∧ t.sp = s.sp + 3#8 ∧ t.cyc = s.cyc + 6
      ∧ t.a = s.a ∧ t.x = s.x ∧ t.y = s.y ∧ SameOutside s t

/-! ## Stack and subroutines -/

/-- PHA, PHP, PLA, PLP (41_stack.md R121 to R124). -/
def Obligations.PushesAndPulls : Prop :=
  ∀ s : State,
    (∀ (op : Byte) (i : Instr) (v : Byte), (op, i, v) ∈ [(0x48#8, .pha, s.a), (0x08#8, .php, s.p ||| 0x30#8)] →
      encode i = [op]
        ∧ ∃ t, exec i s = .next t ∧ t.peek (stackAddress s.sp) = v ∧ t.sp = s.sp - 1#8 ∧ t.cyc = s.cyc + 3
          ∧ Leaves [.sp] [] s { s with ram := t.ram } t ∧ ∀ b, OffStack 1 s b → t.peek b = s.peek b)
    ∧ encode .pla = [0x68#8] ∧ encode .plp = [0x28#8]
    ∧ (∃ t, exec .pla s = .next t ∧ t.a = s.peek (stackAddress (s.sp + 1#8)) ∧ ShowsNZ t.a t ∧ t.sp = s.sp + 1#8
        ∧ t.cyc = s.cyc + 4 ∧ Leaves [.a, .sp] [7, 1] s s t)
    ∧ ∃ t, exec .plp s = .next t
        ∧ (∀ i, i ≠ 4 → i ≠ 5 → t.p.getLsbD i = (s.peek (stackAddress (s.sp + 1#8))).getLsbD i)
        ∧ t.p.getLsbD 4 = false ∧ t.p.getLsbD 5 = true ∧ t.sp = s.sp + 1#8 ∧ t.cyc = s.cyc + 4
        ∧ t.a = s.a ∧ t.x = s.x ∧ t.y = s.y ∧ t.pc = s.pc ∧ SameOutside s t

/-- JSR and RTS (44_control_transfer.md R180, R182): the address pushed is one less than PC, and RTS adds one. -/
def Obligations.SubroutineCallAndReturn : Prop :=
  ∀ (s : State) (a : Addr), (encode (.jsr a)).head? = some 0x20#8 ∧ encode .rts = [0x60#8]
    ∧ (∃ t, exec (.jsr a) s = .next t ∧ t.peek (stackAddress s.sp) = highByte (s.pc - 1#16)
        ∧ t.peek (stackAddress (s.sp - 1#8)) = lowByte (s.pc - 1#16) ∧ t.sp = s.sp - 2#8 ∧ t.pc = a ∧ t.cyc = s.cyc + 6
        ∧ Leaves [.sp] [] s { s with ram := t.ram } { t with pc := s.pc }
        ∧ ∀ b, OffStack 2 s b → t.peek b = s.peek b)
    ∧ ∃ t, exec .rts s = .next t
        ∧ t.pc = joinBytes (s.peek (stackAddress (s.sp + 2#8))) (s.peek (stackAddress (s.sp + 1#8))) + 1#16
        ∧ t.sp = s.sp + 2#8 ∧ t.cyc = s.cyc + 6 ∧ Leaves [.sp] [] s s { t with pc := s.pc }

/-- A subroutine that leaves S and the two stacked bytes as it found them returns to the instruction after the JSR. -/
def Obligations.CallThenReturn : Prop :=
  ∀ (s : State) (a : Addr) (u v : State), exec (.jsr a) s = .next u → v.sp = u.sp →
    v.peek (stackAddress s.sp) = u.peek (stackAddress s.sp) →
    v.peek (stackAddress (s.sp - 1#8)) = u.peek (stackAddress (s.sp - 1#8)) →
    ∃ t, exec .rts v = .next t ∧ t.pc = s.pc ∧ t.sp = s.sp

/-! ## Operands -/

/-- The effective address of each memory mode, in integers, and when it crosses a page (30_encoding.md R76 to R79, R81,
R82). -/
def Obligations.EffectiveAddresses : Prop :=
  ∀ (s : State) (d : Byte) (a : Addr),
    let base := (s.peek (BitVec.ofNat 16 d.toNat)).toNat + 256 * (s.peek (BitVec.ofNat 16 ((d.toNat + 1) % 256))).toNat
    let at16 (o : MemOperand) : Nat := (o.address s).toNat
    at16 (.zp d) = d.toNat ∧ at16 (.zpx d) = (d.toNat + s.x.toNat) % 256 ∧ at16 (.zpy d) = (d.toNat + s.y.toNat) % 256
      ∧ at16 (.abs a) = a.toNat ∧ at16 (.abx a) = (a.toNat + s.x.toNat) % 65536
      ∧ at16 (.aby a) = (a.toNat + s.y.toNat) % 65536
      ∧ at16 (.izx d) = (s.peek (BitVec.ofNat 16 ((d.toNat + s.x.toNat) % 256))).toNat
          + 256 * (s.peek (BitVec.ofNat 16 ((d.toNat + s.x.toNat + 1) % 256))).toNat
      ∧ at16 (.izy d) = (base + s.y.toNat) % 65536
      ∧ ((MemOperand.abx a).crossed s = true ↔ at16 (.abx a) / 256 ≠ a.toNat / 256)
      ∧ ((MemOperand.aby a).crossed s = true ↔ at16 (.aby a) / 256 ≠ a.toNat / 256)
      ∧ ((MemOperand.izy d).crossed s = true ↔ at16 (.izy d) / 256 ≠ base / 256)
      ∧ ∀ o ∈ [MemOperand.zp d, .zpx d, .zpy d, .abs a, .izx d], o.crossed s = false

/-- Which bytes an instruction can change, read one at a time: after a form that only reads, all but what that read
changes; after a form that stores, all but what that store (and, for a read-modify-write form, the read before it)
changes; after a form that touches no memory, none. -/
def Obligations.OtherBytesOfMemoryAreKept : Prop :=
  ∀ (d : Byte) (a b : Addr) (s t : State),
    (∀ f ∈ readForms d a, exec f.instr s = .next t →
      (∀ o, f.operand = .mem o → readChanges (o.address s) b = false) → t.peek b = s.peek b)
    ∧ (∀ f ∈ storeForms d a, exec f.instr s = .next t → writeChanges (f.operand.address s) b = false →
        t.peek b = s.peek b)
    ∧ (∀ f ∈ modifyForms d a, exec f.instr s = .next t → readChanges (f.operand.address s) b = false →
        writeChanges (f.operand.address s) b = false → t.peek b = s.peek b)
    ∧ ∀ i ∈ quietInstrs d a, exec i s = .next t → t.peek b = s.peek b

/-! ## Results of the instructions -/

/-- LDA, LDX, LDY, LAX (40_load_store_transfer.md R101 to R103, 46_undocumented.md R213). -/
def Obligations.LoadsLoad : Prop :=
  ∀ (d : Byte) (a : Addr) (forms : List ReadForm) (regs : List CpuReg),
    (forms, regs) ∈ [(ldaForms d a, [.a]), (ldxForms d a, [.x]), (ldyForms d a, [.y]), (laxForms d a, [.a, .x])] →
    ∀ f ∈ forms, ∀ s : State, f.Encoded
      ∧ ∃ t, exec f.instr s = .next t ∧ (∀ r ∈ regs, t.reg r = f.operand.value s) ∧ ShowsNZ (f.operand.value s) t
        ∧ t.cyc = s.cyc + f.cost s ∧ Leaves regs [7, 1] s (f.operand.after s) t

/-- STA, STX, STY, AAX (40_load_store_transfer.md R104 to R106, 46_undocumented.md R214). -/
def Obligations.StoresStore : Prop :=
  ∀ (d : Byte) (a : Addr) (s : State) (forms : List MemForm) (v : Byte),
    (forms, v) ∈ [(staForms d a, s.a), (stxForms d a, s.x), (styForms d a, s.y), (aaxForms d a, s.a &&& s.x)] →
    ∀ f ∈ forms, f.Encoded
      ∧ ∃ t, exec f.instr s = .next t ∧ t.cyc = s.cyc + f.cycles + f.stall v s ∧ Leaves [] [] s (f.stored v s) t

/-- TAX, TAY, TXA, TYA, TSX, TXS, INX, INY, DEX, DEY (40_load_store_transfer.md R107 to R112; 42_arithmetic.md R139, R140,
R142, R143). -/
def Obligations.TransfersAndCounts : Prop :=
  ∀ s : State,
    (∀ f ∈ transferForms ++ countForms, encode f.instr = [f.opcode]
      ∧ ∃ t, exec f.instr s = .next t ∧ t.reg f.dest = f.value s ∧ ShowsNZ (f.value s) t ∧ t.cyc = s.cyc + 2
        ∧ Leaves [f.dest] [7, 1] s s t)
    ∧ encode .txs = [0x9A#8] ∧ ∃ t, exec .txs s = .next t ∧ t.sp = s.x ∧ t.cyc = s.cyc + 2 ∧ Leaves [.sp] [] s s t

/-- ADC (42_arithmetic.md R130, R132). -/
def Obligations.AdcAdds : Prop :=
  ∀ (d : Byte) (a : Addr), ∀ f ∈ adcForms d a, ∀ s : State, f.Encoded
    ∧ ∃ t, exec f.instr s = .next t ∧ s.Added (flagC s.p) (f.operand.value s) t ∧ t.cyc = s.cyc + f.cost s
      ∧ Leaves [.a] [7, 6, 1, 0] s (f.operand.after s) t

/-- SBC, both encodings of the immediate form (42_arithmetic.md R133, 46_undocumented.md R222). -/
def Obligations.SbcSubtracts : Prop :=
  ∀ (d : Byte) (a : Addr), ∀ f ∈ sbcForms d a, ∀ s : State, f.Encoded
    ∧ ∃ t, exec f.instr s = .next t ∧ s.Subtracted (flagC s.p) (f.operand.value s) t ∧ t.cyc = s.cyc + f.cost s
      ∧ Leaves [.a] [7, 6, 1, 0] s (f.operand.after s) t

/-- In the optional decimal mode with R131's default functions, ADC and SBC on bytes of two decimal digits are decimal
addition and subtraction with carry (42_arithmetic.md R131, D18; the default functions are log entry 21). -/
def Obligations.DecimalModeIsDecimal : Prop :=
  ∀ (d : Byte) (a : Addr) (f : ReadForm) (s : State), s.params.decimalEnable = true → s.params.decimalFunctions = .nmos →
    flagD s.p = true → IsBcd s.a → IsBcd (f.operand.value s) →
    (f ∈ adcForms d a → ∃ t, exec f.instr s = .next t ∧ IsBcd t.a
      ∧ bcdValue t.a = (bcdValue s.a + bcdValue (f.operand.value s) + s.carryIn) % 100
      ∧ (flagC t.p = true ↔ 100 ≤ bcdValue s.a + bcdValue (f.operand.value s) + s.carryIn))
    ∧ (f ∈ sbcForms d a → ∃ t, exec f.instr s = .next t ∧ IsBcd t.a
      ∧ (bcdValue t.a : Int) = ((bcdValue s.a : Int) - bcdValue (f.operand.value s) - (1 - s.carryIn)) % 100
      ∧ (flagC t.p = true ↔ 0 ≤ (bcdValue s.a : Int) - bcdValue (f.operand.value s) - (1 - s.carryIn)))

/-- CMP, CPX, CPY (42_arithmetic.md R134 to R137). -/
def Obligations.ComparesCompare : Prop :=
  ∀ (d : Byte) (a : Addr) (s : State) (forms : List ReadForm) (r : Byte),
    (forms, r) ∈ [(cmpForms d a, s.a), (cpxForms d a, s.x), (cpyForms d a, s.y)] →
    ∀ f ∈ forms, f.Encoded
      ∧ ∃ t, exec f.instr s = .next t ∧ ShowsCompare r (f.operand.value s) t ∧ t.cyc = s.cyc + f.cost s
        ∧ Leaves [] [7, 1, 0] s (f.operand.after s) t

/-- INC and DEC (42_arithmetic.md R138, R141). -/
def Obligations.IncAndDecCount : Prop :=
  ∀ (d : Byte) (a : Addr) (s : State) (forms : List MemForm) (delta : Nat),
    (forms, delta) ∈ [(incForms d a, 1), (decForms d a, 255)] →
    ∀ f ∈ forms, f.Encoded
      ∧ ∃ (r : Byte) (t : State), exec f.instr s = .next t ∧ r.toNat = ((f.value s).toNat + delta) % 256 ∧ ShowsNZ r t
        ∧ t.cyc = s.cyc + f.cycles + f.modifyStall r s ∧ Leaves [] [7, 1] s (f.modified r s) t

/-- AND, ORA, EOR and BIT (43_logic_shift.md R151 to R154), bit by bit. -/
def Obligations.LogicAndBitTest : Prop :=
  ∀ (d : Byte) (a : Addr) (forms : List ReadForm) (op : Bool → Bool → Bool),
    (forms, op) ∈ [(andForms d a, and), (oraForms d a, or), (eorForms d a, xor)] →
    ∀ s : State,
      (∀ f ∈ forms, f.Encoded
        ∧ ∃ t, exec f.instr s = .next t
          ∧ (∀ i, i < 8 → t.a.getLsbD i = op (s.a.getLsbD i) ((f.operand.value s).getLsbD i)) ∧ ShowsNZ t.a t
          ∧ t.cyc = s.cyc + f.cost s ∧ Leaves [.a] [7, 1] s (f.operand.after s) t)
      ∧ ∀ f ∈ bitForms d a, f.Encoded
        ∧ ∃ t, exec f.instr s = .next t ∧ (flagZ t.p = true ↔ s.a &&& f.operand.value s = 0#8)
          ∧ flagN t.p = (f.operand.value s).getLsbD 7 ∧ flagV t.p = (f.operand.value s).getLsbD 6
          ∧ t.cyc = s.cyc + f.cost s ∧ Leaves [] [7, 6, 1] s (f.operand.after s) t

/-- ASL, LSR, ROL, ROR on A and on memory (43_logic_shift.md R155 to R159). -/
def Obligations.ShiftsShift : Prop :=
  (∀ (v : Byte) (c : Bool), IsAsl v (shiftAsl v c) ∧ IsLsr v (shiftLsr v c) ∧ IsRol v c (shiftRol v c) ∧ IsRor v c (shiftRor v c))
    ∧ (∀ (s : State) (op : Byte) (i : Instr) (f : Shift), (op, i, f) ∈ accumulatorShifts →
        encode i = [op]
          ∧ ∃ t, exec i s = .next t ∧ t.a = (f s.a (flagC s.p)).1 ∧ flagC t.p = (f s.a (flagC s.p)).2 ∧ ShowsNZ t.a t
            ∧ t.cyc = s.cyc + 2 ∧ Leaves [.a] [7, 1, 0] s s t)
    ∧ ∀ (d : Byte) (a : Addr) (s : State) (forms : List MemForm) (sh : Shift), (forms, sh) ∈ memoryShifts d a →
        ∀ f ∈ forms, f.Encoded
          ∧ ∃ (r : Byte × Bool) (t : State), exec f.instr s = .next t ∧ r = sh (f.value s) (flagC s.p)
            ∧ flagC t.p = r.2 ∧ ShowsNZ r.1 t ∧ t.cyc = s.cyc + f.cycles + f.modifyStall r.1 s
            ∧ Leaves [] [7, 1, 0] s (f.modified r.1 s) t

/-- CLC, SEC, CLI, SEI, CLV, CLD, SED (45_flags_system.md R191 to R197). -/
def Obligations.FlagInstructionsWriteOneFlag : Prop :=
  ∀ (s : State) (op : Byte) (i : Instr) (k : Nat) (v : Bool), (op, i, k, v) ∈ flagForms →
    encode i = [op]
      ∧ ∃ t, exec i s = .next t ∧ t.p.getLsbD k = v ∧ t.cyc = s.cyc + 2 ∧ Leaves [] [k] s s t

/-- NOP, *NOP, DOP and TOP (45_flags_system.md R198; 46_undocumented.md R211, R212, R221): nothing but the read of the
memory forms. -/
def Obligations.NoOperationsDoNothing : Prop :=
  ∀ (s : State) (d : Byte) (a : Addr),
    (∀ (op : Byte) (i : Instr), (op, i) ∈ idleForms d →
      (encode i).head? = some op ∧ ∃ t, exec i s = .next t ∧ t.cyc = s.cyc + 2 ∧ Leaves [] [] s s t)
    ∧ ∀ f ∈ dopForms d a ++ topForms d a, f.Encoded
      ∧ ∃ t, exec f.instr s = .next t ∧ t.cyc = s.cyc + f.cost s ∧ Leaves [] [] s (f.operand.after s) t

/-- The eight branches (44_control_transfer.md R170 to R178; 30_encoding.md R84): PC is at the next instruction. -/
def Obligations.BranchesBranch : Prop :=
  ∀ (s : State) (d op : Byte) (i : Instr) (k : Nat) (v : Bool), (op, i, k, v) ∈ branchForms d →
    encode i = [op, d]
      ∧ ∃ t, exec i s = .next t
        ∧ (s.p.getLsbD k = v → (t.pc.toNat : Int) = (s.pc.toNat + d.toInt) % 65536
            ∧ t.cyc = s.cyc + if t.pc.toNat / 256 = s.pc.toNat / 256 then 3 else 4)
        ∧ (s.p.getLsbD k ≠ v → t.pc = s.pc ∧ t.cyc = s.cyc + 2)
        ∧ Leaves [] [] s s { t with pc := s.pc }

/-- JMP absolute and indirect (44_control_transfer.md R179, R181; 30_encoding.md R80): the pointer's high byte is read
from the pointer's own page, after the low byte. -/
def Obligations.JumpsJump : Prop :=
  ∀ (s : State) (a : Addr), (encode (.jmpAbs a)).head? = some 0x4C#8 ∧ (encode (.jmpInd a)).head? = some 0x6C#8
    ∧ (∃ t, exec (.jmpAbs a) s = .next t ∧ t.pc = a ∧ t.cyc = s.cyc + 3 ∧ Leaves [] [] s s { t with pc := s.pc })
    ∧ ∃ (second : Addr) (t : State), exec (.jmpInd a) s = .next t
        ∧ second.toNat = a.toNat / 256 * 256 + (a.toNat + 1) % 256
        ∧ t.pc.toNat = (s.peek a).toNat + 256 * ((s.touch a).peek second).toNat ∧ t.cyc = s.cyc + 5
        ∧ Leaves [] [] s ((s.touch a).touch second) { t with pc := s.pc }

/-- SLO, RLA, SRE (46_undocumented.md R215 to R217). -/
def Obligations.ShiftThenLogicInstructions : Prop :=
  ∀ (d : Byte) (a : Addr) (s : State) (forms : List MemForm) (sh : Shift) (op : Byte → Byte → Byte),
    (forms, sh, op) ∈ [(sloForms d a, shiftAsl, (· ||| ·)), (rlaForms d a, shiftRol, (· &&& ·)),
      (sreForms d a, shiftLsr, (· ^^^ ·))] →
    ∀ f ∈ forms, f.Encoded
      ∧ ∃ (r : Byte × Bool) (t : State), exec f.instr s = .next t ∧ r = sh (f.value s) (flagC s.p)
        ∧ t.a = op s.a r.1 ∧ flagC t.p = r.2 ∧ ShowsNZ t.a t ∧ t.cyc = s.cyc + f.cycles + f.modifyStall r.1 s
        ∧ Leaves [.a] [7, 1, 0] s (f.modified r.1 s) t

/-- RRA, ISC, DCP (46_undocumented.md R218 to R220). -/
def Obligations.RotateOrCountThenArithmetic : Prop :=
  ∀ (d : Byte) (a : Addr) (s : State),
    (∀ f ∈ rraForms d a, f.Encoded
      ∧ ∃ (r : Byte × Bool) (t : State), exec f.instr s = .next t ∧ r = shiftRor (f.value s) (flagC s.p)
        ∧ s.Added r.2 r.1 t ∧ t.cyc = s.cyc + f.cycles + f.modifyStall r.1 s
        ∧ Leaves [.a] [7, 6, 1, 0] s (f.modified r.1 s) t)
    ∧ (∀ f ∈ iscForms d a, f.Encoded
      ∧ ∃ (r : Byte) (t : State), exec f.instr s = .next t ∧ r.toNat = ((f.value s).toNat + 1) % 256
        ∧ s.Subtracted (flagC s.p) r t ∧ t.cyc = s.cyc + f.cycles + f.modifyStall r s
        ∧ Leaves [.a] [7, 6, 1, 0] s (f.modified r s) t)
    ∧ ∀ f ∈ dcpForms d a, f.Encoded
      ∧ ∃ (r : Byte) (t : State), exec f.instr s = .next t ∧ r.toNat = ((f.value s).toNat + 255) % 256
        ∧ ShowsCompare s.a r t ∧ t.cyc = s.cyc + f.cycles + f.modifyStall r s
        ∧ Leaves [] [7, 1, 0] s (f.modified r s) t

/-- Of all instructions, which opcodes can change each flag, each register but A, and PC (10_state.md R10 to R14). -/
def Obligations.WritersOfFlagsAndRegisters : Prop :=
  ∀ (i : Instr) (s t : State), exec i s = .next t →
    (flagD t.p ≠ flagD s.p → opcodeOf i ∈ [0xD8#8, 0xF8#8, 0x28#8, 0x40#8])
    ∧ (flagI t.p ≠ flagI s.p → opcodeOf i ∈ [0x58#8, 0x78#8, 0x28#8, 0x40#8, 0x00#8])
    ∧ (flagV t.p ≠ flagV s.p → opcodeOf i ∈ [0xB8#8, 0x28#8, 0x40#8]
        ∨ ∃ d a, i ∈ ((adcForms d a ++ sbcForms d a ++ bitForms d a).map ReadForm.instr)
          ∨ i ∈ ((rraForms d a ++ iscForms d a).map MemForm.instr))
    ∧ (t.x ≠ s.x → opcodeOf i ∈ [0xAA#8, 0xBA#8, 0xE8#8, 0xCA#8]
        ∨ ∃ d a, i ∈ (ldxForms d a ++ laxForms d a).map ReadForm.instr)
    ∧ (t.y ≠ s.y → opcodeOf i ∈ [0xA8#8, 0xC8#8, 0x88#8] ∨ ∃ d a, i ∈ (ldyForms d a).map ReadForm.instr)
    ∧ (t.sp ≠ s.sp → opcodeOf i ∈ [0x9A#8, 0x48#8, 0x08#8, 0x68#8, 0x28#8, 0x20#8, 0x60#8, 0x40#8, 0x00#8])
    ∧ (t.pc ≠ s.pc → opcodeOf i ∈ [0x4C#8, 0x6C#8, 0x20#8, 0x60#8, 0x40#8, 0x00#8, 0x10#8, 0x30#8, 0x50#8, 0x70#8, 0x90#8,
        0xB0#8, 0xD0#8, 0xF0#8])

/-! ## The Bus -/

/-- RAM and its four images (20_memory.md R46): a write is seen at every image and nowhere else, and a read changes
nothing. -/
def Obligations.RamIsMirrored : Prop :=
  ∀ (s : State) (a b : Addr) (v : Byte), a.toNat < 0x2000 →
    s.touch a = s ∧ ∃ t, s.memWrite a v = (t, 0) ∧ t = { s with ram := t.ram }
      ∧ t.peek b = if b.toNat < 0x2000 ∧ b.toNat % 2048 = a.toNat % 2048 then v else s.peek b

/-- Addresses that read 0, addresses that ignore a write (20_memory.md R49), and the addresses whose read changes
something (R50): $2002 and $2007 with their mirrors, $4015, $4016 and $4017. -/
def Obligations.AddressesWithoutEffect : Prop :=
  ∀ (s : State) (a : Addr) (v : Byte),
    let n := a.toNat
    let register (k : Nat) : Prop := 0x2000 ≤ n ∧ n < 0x4000 ∧ n % 8 = k
    let unmapped : Prop := 0x4018 ≤ n ∧ n < 0x6000
    (register 0 ∨ register 1 ∨ register 3 ∨ register 5 ∨ register 6 ∨ (0x4000 ≤ n ∧ n ≤ 0x4014) ∨ unmapped → s.peek a = 0#8)
      ∧ (register 2 ∨ unmapped → s.memWrite a v = (s, 0))
      ∧ (0x8000 ≤ n → (s.memWrite a v).1.cart.prgRom = s.cart.prgRom)
      ∧ (¬ (register 2 ∨ register 7 ∨ n = 0x4015 ∨ n = 0x4016 ∨ n = 0x4017) → s.touch a = s)
      ∧ (register 2 ∨ register 7 ∨ n = 0x4015 ∨ n = 0x4016 ∨ n = 0x4017 → ∃ u : State, u.touch a ≠ u)

/-- The OAM DMA (20_memory.md R52): 256 ordinary reads in order, each byte put at the next OAM location; 513 or 514 stall
cycles, where every other write reports none; the count is added to `cyc`. From a page of memory it is a plain copy. -/
def Obligations.OamDmaCopies : Prop :=
  ∀ (s : State) (page : Byte),
    (∃ σ : Nat → State, σ 0 = s ∧ (s.memWrite 0x4014#16 page).1 = { σ 256 with dmaDraws := s.dmaDraws + 1 }
      ∧ ∀ i, i < 256 →
        let a := joinBytes page (BitVec.ofNat 8 i)
        let u := (σ i).touch a
        σ (i + 1) = { u with ppu := { u.ppu with oam := u.ppu.oam.write ((u.ppu.oamAddr.toNat + i) % 256) ((σ i).peek a) } })
    ∧ ((s.memWrite 0x4014#16 page).2 = 513 ∨ (s.memWrite 0x4014#16 page).2 = 514)
    ∧ (page.toNat < 0x20 ∨ 0x40 < page.toNat → ∃ oam : Memory,
        (s.memWrite 0x4014#16 page).1 = { s with ppu := { s.ppu with oam := oam }, dmaDraws := s.dmaDraws + 1 }
        ∧ ∀ k, k < 256 → oam.read ((s.ppu.oamAddr.toNat + k) % 256) = s.peek (joinBytes page (BitVec.ofNat 8 k)))
    ∧ ∀ (a : Addr) (v : Byte), (a ≠ 0x4014#16 → (s.memWrite a v).2 = 0) ∧ (s.store a v).cyc = s.cyc + (s.memWrite a v).2

/-- The cartridge's window of the CPU address space (63_cartridge_bus_driver.md R352, R353): ROM through the slots, and
8 KB of RAM that every variant reads and writes, whatever its enable and protect bits. -/
def Obligations.CartridgeWindow : Prop :=
  ∀ (s : State) (a b : Addr) (v : Byte),
    (∀ slot : Fin 32, 0x8000 ≤ a.toNat → slot.val = (a.toNat - 0x8000) / 1024 →
      s.peek a = s.cart.prgRom.read (1024 * s.cart.prgSlot[slot] + a.toNat % 1024)
      ∧ ∃ t, s.memWrite a v = (t, 0) ∧ t = { s with cart := t.cart } ∧ t.cart.prgRom = s.cart.prgRom
        ∧ t.cart.prgRam = s.cart.prgRam)
    ∧ (0x6000 ≤ a.toNat → a.toNat < 0x8000 →
      ∃ t, s.memWrite a v = (t, 0) ∧ t = { s with cart := { s.cart with prgRam := t.cart.prgRam } }
        ∧ t.peek b = if b = a then v else s.peek b)

/-- Controller ports (63_cartridge_bus_driver.md R372): after a strobe of 1 and 0, each port returns the eight buttons the
host captured, then ones, whatever the reads of the other port; while the strobe is 1 it returns button A. -/
def Obligations.ControllersShiftOutTheButtons : Prop :=
  ∀ (s : State) (on off : Byte) (n m : Nat), on.getLsbD 0 = true → off.getLsbD 0 = false →
    let high := (s.memWrite 0x4016#16 on).1
    let low := (high.memWrite 0x4016#16 off).1
    let after (u : State) := (State.touch 0x4017#16)^[m] ((State.touch 0x4016#16)^[n] u)
    (after low).peek 0x4016#16 = bitOf (if n < 8 then s.ports.captured1.getLsbD n else true)
      ∧ (after low).peek 0x4017#16 = bitOf (if m < 8 then s.ports.captured2.getLsbD m else true)
      ∧ (after high).peek 0x4016#16 = bitOf (s.ports.captured1.getLsbD 0)
      ∧ (after high).peek 0x4017#16 = bitOf (s.ports.captured2.getLsbD 0)
      ∧ after low = { s with ports := (after low).ports }

/-! ## The PPU -/

/-- The PPU address space holds what is written to it (61_ppu.md R262, R263; 63_cartridge_bus_driver.md R354, R367,
R368): a write of `a` is read back at exactly the addresses with the same byte behind them; CHR-ROM ignores it and the
palette keeps six bits. -/
def Obligations.PpuMemoryReadsBack : Prop :=
  ∀ (s : State) (a c : PpuAddr) (b : Byte),
    (s.ppuCell a = s.ppuCell c → s.peekPpu a = s.peekPpu c)
      ∧ (s.writePpu a b).peekPpu c =
        if s.ppuCell c = s.ppuCell a ∧ (a.toNat < 0x2000 → s.cart.chr8k = 0) then
          (if 0x3F00 ≤ a.toNat then b &&& 0x3F#8 else b)
        else s.peekPpu c

/-- $2000 to $2004 and their mirrors (61_ppu.md R264 to R267): what a write stores and what a read of $2002 clears. The
Nmi a write of $2000 can request is the choice of decision D27. -/
def Obligations.ControlStatusAndOamRegisters : Prop :=
  ∀ (s : State) (a : Addr) (b : Byte), 0x2000 ≤ a.toNat → a.toNat < 0x4000 →
    let t := (s.memWrite a b).1
    let u := s.touch a
    (a.toNat % 8 = 0 → t = { s with ppu := { s.ppu with ctrl := b, t := t.ppu.t }, pending := t.pending }
        ∧ nametable t.ppu.t = b.toNat % 4 ∧ coarseX t.ppu.t = coarseX s.ppu.t ∧ coarseY t.ppu.t = coarseY s.ppu.t
        ∧ fineY t.ppu.t = fineY s.ppu.t
        ∧ t.pending = if s.ppu.ctrl.getLsbD 7 = false ∧ b.getLsbD 7 ∧ s.ppu.status.getLsbD 7 then (s.request .nmi).pending
          else s.pending)
      ∧ (a.toNat % 8 = 1 → t = { s with ppu := { s.ppu with mask := b } })
      ∧ (a.toNat % 8 = 2 → (∀ i, i < 8 → (s.peek a).getLsbD i = (decide (5 ≤ i) && s.ppu.status.getLsbD i))
        ∧ u = { s with ppu := { s.ppu with status := u.ppu.status, w := false, vblankLock := u.ppu.vblankLock } }
        ∧ (∀ i, u.ppu.status.getLsbD i = (decide (i ≠ 7) && s.ppu.status.getLsbD i))
        ∧ (u.ppu.vblankLock = true ↔ s.ppu.vblankLock = true ∨ (s.ppu.scanline = 261 ∧ s.ppu.cycle = 340)))
      ∧ (a.toNat % 8 = 3 → t = { s with ppu := { s.ppu with oamAddr := b } })
      ∧ (a.toNat % 8 = 4 → s.peek a = s.ppu.oam.read s.ppu.oamAddr.toNat
        ∧ t = { s with ppu := { s.ppu with oam := t.ppu.oam, oamAddr := t.ppu.oamAddr } }
        ∧ t.ppu.oamAddr.toNat = (s.ppu.oamAddr.toNat + 1) % 256
        ∧ ∀ k, t.ppu.oam.read k = if k = s.ppu.oamAddr.toNat then b else s.ppu.oam.read k)

/-- $2005 and $2006 with their mirrors, by the fields of `t`, and the read of $2002 that makes the next write a first
write again (61_ppu.md R268, R269). -/
def Obligations.ScrollAndAddressWrites : Prop :=
  ∀ (s : State) (a : Addr) (b : Byte), 0x2000 ≤ a.toNat → a.toNat < 0x4000 →
    let p := s.ppu
    let t := (s.memWrite a b).1
    let q := t.ppu
    (a.toNat % 8 = 5 → t = { s with ppu := { p with t := q.t, fineX := q.fineX, w := !p.w } }
        ∧ nametable q.t = nametable p.t
        ∧ (p.w = false → coarseX q.t = b.toNat / 8 ∧ q.fineX.toNat = b.toNat % 8 ∧ coarseY q.t = coarseY p.t
          ∧ fineY q.t = fineY p.t)
        ∧ (p.w = true → fineY q.t = b.toNat % 8 ∧ coarseY q.t = b.toNat / 8 ∧ coarseX q.t = coarseX p.t
          ∧ q.fineX = p.fineX))
      ∧ (a.toNat % 8 = 6 → t = { s with ppu := { p with t := q.t, v := q.v, w := !p.w } }
        ∧ (p.w = false → q.t.toNat = b.toNat % 64 * 256 + p.t.toNat % 256 ∧ q.v = p.v)
        ∧ (p.w = true → q.t.toNat = p.t.toNat / 256 * 256 + b.toNat ∧ q.v = q.t))
      ∧ (a.toNat % 8 = 5 ∨ a.toNat % 8 = 6 → s.peek a = 0#8) ∧ (s.touch 0x2002#16).ppu.w = false

/-- $2007 and its mirrors (61_ppu.md R272, R273): the write, the buffered read, the immediate palette read, the step of
`v`; a byte written below the palette is the second of two reads from its address. That all of this holds while rendering
too is the choice of decision D25 (R274). -/
def Obligations.DataPort : Prop :=
  ∀ (s : State) (a : Addr) (b : Byte), 0x2000 ≤ a.toNat → a.toNat < 0x4000 → a.toNat % 8 = 7 →
    let address : PpuAddr := BitVec.ofNat 14 s.ppu.v.toNat
    let under : PpuAddr := if address.toNat < 0x3F00 then address else address - 0x1000#14
    let step := if s.ppu.ctrl.getLsbD 2 then 32 else 1
    let next : BitVec 15 := BitVec.ofNat 15 (s.ppu.v.toNat + step)
    let t := (s.memWrite a b).1
    let u := s.touch a
    let aim (s : State) : State :=
      (((s.touch 0x2002#16).memWrite 0x2006#16 (BitVec.ofNat 8 (address.toNat / 256))).1.memWrite 0x2006#16
        (BitVec.ofNat 8 address.toNat)).1
    t = { s.writePpu address b with ppu := { (s.writePpu address b).ppu with v := next } }
      ∧ s.peek a = (if address.toNat < 0x3F00 then s.ppu.readBuffer else s.peekPpu address)
      ∧ u = { s.touchPpu under with ppu := { s.ppu with v := next, readBuffer := s.peekPpu under } }
      ∧ (address.toNat + step < 0x3F00 → (address.toNat < 0x2000 → s.cart.chr8k = 0) →
          ((aim t).touch a).peek a = b)

/-- The VBlank edge and the two races of a $2002 read (61_ppu.md R270, R271), from the last cycle before the edge on: the
edge undisturbed, and a read at each of the four positions. -/
def Obligations.VBlankEdgeAndItsRaces : Prop :=
  ∀ s : State, s.ppu.scanline = 261 → s.ppu.cycle = 340 → s.ppu.vblankLock = false →
    let read : State → State := State.touch 0x2002#16
    let reads (u : State) : Bool := (u.peek 0x2002#16).getLsbD 7
    let edge := State.ppuStep 3 s
    let lost := State.ppuStep 3 (read s)
    let at₁ := State.ppuStep 1 s
    let at₂ := State.ppuStep 2 s
    (edge.ppu.scanline = 0 ∧ edge.ppu.cycle = 2 ∧ edge.ppu.status.getLsbD 7 = true
        ∧ edge.pending = if s.ppu.ctrl.getLsbD 7 then (s.request .nmi).pending else s.pending)
      ∧ (lost.ppu.status.getLsbD 7 = false ∧ lost.pending = s.pending ∧ lost.ppu.vblankLock = false)
      ∧ (reads at₁ = true ∧ (State.ppuStep 2 (read at₁)).pending = s.pending
        ∧ (State.ppuStep 2 (read at₁)).ppu.status.getLsbD 7 = false)
      ∧ (reads at₂ = true ∧ (State.ppuStep 1 (read at₂)).pending = s.pending
        ∧ (State.ppuStep 1 (read at₂)).ppu.status.getLsbD 7 = false)
      ∧ (reads edge = true ∧ (read edge).pending = edge.pending ∧ (read edge).ppu.status.getLsbD 7 = false)

/-- The frame (61_ppu.md R261, R275): with rendering off, 89342 cycles and the parity turned at each wrap; with rendering
on, one less on an odd frame. -/
def Obligations.FrameGeometry : Prop :=
  ∀ (s : State) (n : Nat), s.ppu.PositionOk →
    (s.ppu.rendering = false →
      (State.ppuStep n s).ppu.position = (s.ppu.position + n) % 89342
      ∧ (State.ppuStep n s).ppu.oddFrame = (s.ppu.oddFrame != decide ((s.ppu.position + n) / 89342 % 2 = 1)))
    ∧ (s.ppu.rendering = true → s.ppu.position = 0 →
      let length := if s.ppu.oddFrame then 89341 else 89342
      (n < length → (State.ppuStep n s).ppu.oddFrame = s.ppu.oddFrame ∧ (State.ppuStep n s).ppu.PositionOk
        ∧ (n ≠ 0 → (State.ppuStep n s).ppu.position ≠ 0))
      ∧ (State.ppuStep length s).ppu.position = 0 ∧ (State.ppuStep length s).ppu.oddFrame = !s.ppu.oddFrame)

/-- The steps of `v` during rendering, by its fields (61_ppu.md R276, R282): bit 10 is the low bit of the nametable, bit
11 the high one. -/
def Obligations.AddressSteps : Prop :=
  ∀ v t : BitVec 15,
    let x := incrementCoarseX v
    let y := incrementY v
    let h := copyHorizontal t v
    let c := copyVertical t v
    (coarseX x = (coarseX v + 1) % 32 ∧ coarseY x = coarseY v ∧ fineY x = fineY v
        ∧ nametable x / 2 = nametable v / 2
        ∧ nametable x % 2 = if coarseX v = 31 then 1 - nametable v % 2 else nametable v % 2)
      ∧ (coarseX y = coarseX v ∧ fineY y = (fineY v + 1) % 8 ∧ nametable y % 2 = nametable v % 2
        ∧ coarseY y = (if fineY v < 7 then coarseY v else if coarseY v = 29 then 0 else (coarseY v + 1) % 32)
        ∧ nametable y / 2 = if fineY v = 7 ∧ coarseY v = 29 then 1 - nametable v / 2 else nametable v / 2)
      ∧ (coarseX h = coarseX t ∧ nametable h % 2 = nametable t % 2 ∧ coarseY h = coarseY v ∧ fineY h = fineY v
        ∧ nametable h / 2 = nametable v / 2)
      ∧ (coarseX c = coarseX v ∧ nametable c % 2 = nametable v % 2 ∧ coarseY c = coarseY t ∧ fineY c = fineY t
        ∧ nametable c / 2 = nametable t / 2)

/-- Sprite evaluation (61_ppu.md R283): the first eight sprites that cover the next row, in OAM order, and the overflow
flag exactly at a ninth. -/
def Obligations.SpriteEvaluation : Prop :=
  ∀ (p : Ppu) (row : Nat),
    let found := (List.range 64).filter (p.covers row)
    p.evaluateSprites row =
      { p with
        secondary := (found.take 8).map (p.spriteEntry row)
        status := if 8 < found.length then p.status ||| 0x20#8 else p.status }

/-- The pixel at a column (61_ppu.md R285, R286): the palette entry that shows, the sprite-zero hit, and nothing else. -/
def Obligations.PixelPriority : Prop :=
  ∀ (p : Ppu) (x : Nat), x < 256 →
    let bg := (p.backgroundBits x).1
    let background := 4 * (p.backgroundBits x).2 + bg
    let entry :=
      match p.winner x with
      | none => if bg = 0 then 0 else background
      | some slot =>
        if bg = 0 ∨ slot.attr.getLsbD 5 = false then 16 + 4 * (slot.attr.toNat % 4) + slot.bits x else background
    let q := p.drawPixel x
    q = { p with lineBuffer := q.lineBuffer, status := q.status }
      ∧ (∀ k, Sparse.read 0#6 q.lineBuffer k =
          if k = x then (p.palette.read entry).setWidth 6 else Sparse.read 0#6 p.lineBuffer k)
      ∧ (∀ i, i ≠ 6 → q.status.getLsbD i = p.status.getLsbD i)
      ∧ (q.status.getLsbD 6 = true ↔ p.status.getLsbD 6 = true
          ∨ ∃ slot, p.winner x = some slot ∧ slot.isZero = true ∧ bg ≠ 0 ∧ x ≤ 254)

/-! ## The APU -/

/-- Length counters (62_apu.md R302) and $4015 (R334, R335): the table, loads of the four channels' fourth registers, the
clock, the silence at 0 (the triangle holds its output, R315); a write of $4015 as one update of the four counters and the
sample channel; the status byte with its one side effect. -/
def Obligations.LengthCountersAndStatus : Prop :=
  ∀ (s : State) (k : Fin 4) (b : Byte),
    let loaded := (s.memWrite (BitVec.ofNat 16 (0x4003 + 4 * k)) b).1
    let enabled := (s.memWrite 0x4015#16 b).1
    let status := s.peek 0x4015#16
    let gated (l : LengthCounter) (on : Bool) : LengthCounter :=
      { l with enabled := on, count := if on then l.count else 0#8 }
    let table :=
      [10, 254, 20, 2, 40, 4, 80, 6, 160, 8, 60, 10, 14, 12, 26, 14,
       12, 16, 24, 18, 48, 20, 96, 22, 192, 24, 72, 26, 16, 28, 32, 30]
    (((loaded.apu.counter k).count.toNat =
          if (s.apu.counter k).enabled then table.getD (b.toNat / 8) 0 else (s.apu.counter k).count.toNat)
        ∧ (s.apu.LengthsOk → loaded.apu.LengthsOk) ∧ ∀ j : Fin 4, j ≠ k → loaded.apu.counter j = s.apu.counter j)
      ∧ (∀ l : LengthCounter, l.clock = { l with count := l.clock.count }
        ∧ l.clock.count.toNat = if l.halt then l.count.toNat else l.count.toNat - 1)
      ∧ ((s.apu.pulse1.len.count = 0#8 → s.apu.sample.pulse1 = 0#4) ∧ (s.apu.pulse2.len.count = 0#8 → s.apu.sample.pulse2 = 0#4)
        ∧ (s.apu.triangle.len.count = 0#8 → s.clockTriangle.apu.sample.triangle = s.apu.sample.triangle)
        ∧ (s.apu.noise.len.count = 0#8 → s.apu.sample.noise = 0#4))
      ∧ (enabled = { s with apu := enabled.apu }
        ∧ enabled.apu =
          { s.apu with
            pulse1 := { s.apu.pulse1 with len := gated s.apu.pulse1.len (b.getLsbD 0) }
            pulse2 := { s.apu.pulse2 with len := gated s.apu.pulse2.len (b.getLsbD 1) }
            triangle := { s.apu.triangle with len := gated s.apu.triangle.len (b.getLsbD 2) }
            noise := { s.apu.noise with len := gated s.apu.noise.len (b.getLsbD 3) }
            dmc := enabled.apu.dmc }
        ∧ enabled.apu.dmc =
          { s.apu.dmc with
            irq := false
            bytesRemaining :=
              if b.getLsbD 4 = false then 0#12
              else if s.apu.dmc.bytesRemaining = 0#12 then s.apu.dmc.sampleLen else s.apu.dmc.bytesRemaining
            curAddr :=
              if b.getLsbD 4 ∧ s.apu.dmc.bytesRemaining = 0#12 then s.apu.dmc.sampleAddr else s.apu.dmc.curAddr })
      ∧ ((status.getLsbD k = true ↔ (s.apu.counter k).count ≠ 0#8)
        ∧ (status.getLsbD 4 = true ↔ s.apu.dmc.bytesRemaining ≠ 0#12) ∧ status.getLsbD 5 = false
        ∧ status.getLsbD 6 = s.apu.frame.irq ∧ status.getLsbD 7 = s.apu.dmc.irq
        ∧ s.touch 0x4015#16 = { s with apu := { s.apu with frame := { s.apu.frame with irq := false } } })

/-- The frame sequencer (62_apu.md R331 to R333): a write of $4017, one cycle of the divider with the step table and the
Irq, and the position after any number of cycles. -/
def Obligations.FrameSequencerSteps : Prop :=
  ∀ (s : State) (b : Byte) (n : Nat), s.apu.CountersOk s.params →
    let f := s.apu.frame
    let period := s.params.frameDividerPeriod
    let written := (s.memWrite 0x4017#16 b).1
    let t := s.clockFrameDivider
    let clocks : Prop := f.div + 1 = period
    let quarter : Prop := clocks ∧ ¬ (f.fiveStep = true ∧ f.step = 4)
    let half : Prop := clocks ∧ if f.fiveStep then f.step = 0 ∨ f.step = 2 else f.step = 1 ∨ f.step = 3
    let fires : Prop := clocks ∧ f.fiveStep = false ∧ f.step = 3 ∧ f.irqInhibit = false
    (written = { s with apu := written.apu }
        ∧ written.apu =
          { (if b.getLsbD 7 then s.apu.quarterClock.halfClock else s.apu) with
            frame :=
              { fiveStep := b.getLsbD 7, irqInhibit := b.getLsbD 6, div := 0, step := if b.getLsbD 7 then 1 else 0,
                irq := f.irq && !b.getLsbD 6 } })
      ∧ (quarter → half → t.apu = { s.apu.quarterClock.halfClock with frame := t.apu.frame })
      ∧ (quarter → ¬ half → t.apu = { s.apu.quarterClock with frame := t.apu.frame })
      ∧ (¬ quarter → t.apu = { s.apu with frame := t.apu.frame })
      ∧ (t = { s with apu := t.apu, pending := t.pending }
        ∧ t.apu.frame = { f with div := t.apu.frame.div, step := t.apu.frame.step, irq := t.apu.frame.irq })
      ∧ (fires → t.apu.frame.irq = true ∧ t.pending = (s.request .irq).pending)
      ∧ (¬ fires → t.apu.frame.irq = f.irq ∧ t.pending = s.pending)
      ∧ (t.apu.frame.position period = (f.position period + 1) % f.length period)
      ∧ (State.apuStep n s).apu.frame.position period = (f.position period + n) % f.length period
      ∧ Config.params.frameDividerPeriod = 7457

/-- The delta-modulation channel (62_apu.md R325, R326): the memory reader with its wrap, loop and Irq, and one clock of
the output unit. -/
def Obligations.SampleChannel : Prop :=
  ∀ (s : State) (d : Dmc),
    let c := s.apu.dmc
    let t := s.fillBuffer
    let last : Prop := c.bytesRemaining.toNat = 1
    let e := d.clockOutput
    let ends : Prop := d.bitsRemaining.toNat ≤ 1
    ((c.bufferFull = true ∨ c.bytesRemaining = 0#12) → t = s)
      ∧ (c.bufferFull = false → c.bytesRemaining ≠ 0#12 →
        (∃ (curAddr : Addr) (left : BitVec 12) (irq : Bool) (slot : Option Interrupt),
          t = { s.touch c.curAddr with
            pending := slot
            apu := { (s.touch c.curAddr).apu with
              dmc := { c with
                buffer := s.peek c.curAddr, bufferFull := true, curAddr := curAddr, bytesRemaining := left, irq := irq } } })
        ∧ (last → c.loop = true → t.apu.dmc.curAddr = c.sampleAddr ∧ t.apu.dmc.bytesRemaining = c.sampleLen)
        ∧ (¬ (last ∧ c.loop = true) →
            t.apu.dmc.curAddr.toNat = (if c.curAddr.toNat = 0xFFFF then 0x8000 else c.curAddr.toNat + 1)
            ∧ t.apu.dmc.bytesRemaining.toNat = c.bytesRemaining.toNat - 1)
        ∧ (last → c.loop = false → c.irqEnable = true →
            t.apu.dmc.irq = true ∧ t.pending = ((s.touch c.curAddr).request .irq).pending)
        ∧ (¬ (last ∧ c.loop = false ∧ c.irqEnable = true) →
            t.apu.dmc.irq = c.irq ∧ t.pending = (s.touch c.curAddr).pending))
      ∧ (d.timer ≠ 0#9 → e = { d with timer := e.timer } ∧ e.timer.toNat = d.timer.toNat - 1)
      ∧ (d.timer = 0#9 →
        e = { d with
            timer := e.timer, level := e.level, bitsRemaining := e.bitsRemaining, shift := e.shift,
            bufferFull := e.bufferFull, silence := e.silence }
        ∧ e.timer.toNat = dmcRate.getD d.rateIndex.toNat 0 - 1
        ∧ e.level.toNat % 2 = d.level.toNat % 2
        ∧ (d.silence = true → e.level = d.level)
        ∧ (d.silence = false → d.shift.getLsbD 0 = true → e.level.toNat / 2 = min 63 (d.level.toNat / 2 + 1))
        ∧ (d.silence = false → d.shift.getLsbD 0 = false → e.level.toNat / 2 = d.level.toNat / 2 - 1)
        ∧ (¬ ends → e.bitsRemaining.toNat = d.bitsRemaining.toNat - 1 ∧ e.shift.toNat = d.shift.toNat / 2
            ∧ e.bufferFull = d.bufferFull ∧ e.silence = d.silence)
        ∧ (ends → e.bitsRemaining = 8#4 ∧ e.bufferFull = false ∧ e.silence = !d.bufferFull
            ∧ (d.bufferFull = true → e.shift = d.buffer) ∧ (d.bufferFull = false → e.shift.toNat = d.shift.toNat / 2)))

/-! ## The cartridge -/

/-- NROM, UNROM and GxROM (63_cartridge_bus_driver.md R356 to R358): the slots at construction and after a register
write, by slot number. -/
def Obligations.SimpleBoardsSwitchBanks : Prop :=
  ∀ (image : CartridgeImage) (c : Cart) (a : Addr) (b : Byte) (i : Fin 32) (j : Fin 8), 1 ≤ image.prg16k →
    let made := Cart.construct image
    let written := c.mapperWrite a b
    let np := 16 * image.prg16k
    (image.kind = .nrom ∨ image.kind = .gxrom → made.prgSlot[i] = i % np)
      ∧ (image.kind = .unrom → made.prgSlot[i] = if i.val < 16 then i.val else np + i - 32)
      ∧ (image.kind = .nrom ∨ image.kind = .unrom ∨ image.kind = .gxrom → made.chrSlot[j] = j)
      ∧ (c.mapper = .nrom → written = c)
      ∧ (c.mapper = .unrom → written = { c with prgSlot := written.prgSlot }
        ∧ written.prgSlot[i] = if i.val < 16 then (16 * b.toNat + i) % (16 * c.prg16k) else c.prgSlot[i])
      ∧ (c.mapper = .gxrom → written = { c with prgSlot := written.prgSlot, chrSlot := written.chrSlot }
        ∧ written.prgSlot[i] = (32 * (b.toNat / 16 % 4) + i) % (16 * c.prg16k)
        ∧ written.chrSlot[j] = (8 * (b.toNat % 4) + j) % (if c.chr8k = 0 then 8 else 8 * c.chr8k))

/-- The MMC1 serial port (63_cartridge_bus_driver.md R360): five writes load five bits, least significant first, into the
register the fifth address names; a byte with bit 7 resets the port. -/
def Obligations.Mmc1SerialPort : Prop :=
  ∀ (c : Cart) (r : Mmc1) (a₀ a₁ a₂ a₃ a₄ : Addr) (b₀ b₁ b₂ b₃ b₄ : Byte), c.mapper = .mmc1 r →
    (b₀.getLsbD 7 = true →
      c.mapperWrite a₀ b₀ = c.mmc1Update { r with sr := 0#5, srCount := 0, control := r.control ||| 0x0C#5 })
    ∧ (r.sr = 0#5 → r.srCount = 0 → (∀ b ∈ [b₀, b₁, b₂, b₃, b₄], b.getLsbD 7 = false) →
      let four := (((c.mapperWrite a₀ b₀).mapperWrite a₁ b₁).mapperWrite a₂ b₂).mapperWrite a₃ b₃
      let value : BitVec 5 :=
        BitVec.ofNat 5
          (b₀.toNat % 2 + 2 * (b₁.toNat % 2) + 4 * (b₂.toNat % 2) + 8 * (b₃.toNat % 2) + 16 * (b₄.toNat % 2))
      (∃ q : Mmc1, four = { c with mapper := .mmc1 q } ∧ q.srCount = 4)
      ∧ four.mapperWrite a₄ b₄ =
        four.mmc1Update
          (if a₄.toNat / 8192 % 4 = 0 then { r with control := value }
          else if a₄.toNat / 8192 % 4 = 1 then { r with chr0 := value }
          else if a₄.toNat / 8192 % 4 = 2 then { r with chr1 := value }
          else { r with prg := value }))

/-- The MMC3 counter (63_cartridge_bus_driver.md R365) with the default `MMC3_IRQ_FIRE`: only a rise of address bit 12
clocks it; it counts down, and the clock after 0 reloads it and requests the Irq if enabled; a reload request replaces one
clock. -/
def Obligations.Mmc3CounterCountsRises : Prop :=
  ∀ (c : Cart) (r : Mmc3) (a : PpuAddr) (k : Nat),
    let clock (q : Mmc3) : Mmc3 := (q.clockIrq .onUnderflow).1
    (c.mapper = .mmc3 r →
      (¬ (r.lastA12 = false ∧ 0x1000 ≤ a.toNat % 0x2000) →
        c.observeA12 .onUnderflow a = ({ c with mapper := .mmc3 { r with lastA12 := decide (0x1000 ≤ a.toNat % 0x2000) } }, false))
      ∧ (r.lastA12 = false → 0x1000 ≤ a.toNat % 0x2000 →
        c.observeA12 .onUnderflow a = ({ c with mapper := .mmc3 { clock r with lastA12 := true } }, (r.clockIrq .onUnderflow).2)))
    ∧ (r.irqReload = true → r.clockIrq .onUnderflow = ({ r with irqCounter := r.irqLatch, irqReload := false }, false))
    ∧ (r.irqReload = false → k ≤ r.irqCounter.toNat →
        clock^[k] r = { r with irqCounter := r.irqCounter - BitVec.ofNat 8 k }
        ∧ ((clock^[k] r).clockIrq .onUnderflow).2 = (decide (k = r.irqCounter.toNat) && r.irqEnable)
        ∧ clock^[r.irqCounter.toNat + 1] r = { r with irqCounter := r.irqLatch })

/-! ## Invariants -/

/-- The states a run starts from meet the invariants below (10_state.md R30, 70_reset_and_hazards.md R391): the reset
state, and the machine powered on with any parameters in range, cartridge and contents. The reset values among them that
the model chose are log entries 8 and 11. -/
def Obligations.InitialStatesMeetTheInvariants : Prop :=
  let good (s : State) : Prop :=
    s.FlagsOk ∧ s.MemoriesOk ∧ s.ppu.PositionOk ∧ s.ppu.SpritesOk ∧ s.apu.CountersOk s.params ∧ s.apu.LengthsOk
      ∧ s.apu.dmc.AddressesOk ∧ s.cart.mapper.SerialOk
  good State.reset
    ∧ ∀ (q : Config.Params) (image : CartridgeImage) (u : PowerOnContents), ParamsOk q → image.Ok → u.Ok →
      good (State.powerOn q image u)

/-- Every step keeps bit 5 of P at 1 and bit 4 at 0 (10_state.md R15), where `RESET_P` is such a byte. -/
def Obligations.EveryStepKeepsTheFlagByte : Prop :=
  ∀ s t : State, s.FlagsOk → step s = .next t → t.FlagsOk

/-- Every step keeps every memory in its canonical form and size, and every bank index inside its array
(63_cartridge_bus_driver.md R355). -/
def Obligations.EveryStepKeepsTheMemories : Prop :=
  ∀ s t : State, s.MemoriesOk → step s = .next t → t.MemoriesOk

/-- Every step keeps the devices' counters in their ranges (61_ppu.md R275, R283, R284; 62_apu.md R302, R316, R320, R332,
R333; 63_cartridge_bus_driver.md R359), and the addresses the sample DMA reads in 0x8000–0xFFFF (20_memory.md R60). -/
def Obligations.EveryStepKeepsTheDevicesInRange : Prop :=
  ∀ s t : State, step s = .next t →
    (s.ppu.PositionOk → t.ppu.PositionOk) ∧ (s.ppu.SpritesOk → t.ppu.SpritesOk)
      ∧ (s.apu.CountersOk s.params → t.apu.CountersOk t.params) ∧ (s.apu.LengthsOk → t.apu.LengthsOk)
      ∧ (s.apu.dmc.AddressesOk → t.apu.dmc.AddressesOk)
      ∧ (s.cart.mapper.SerialOk → t.cart.mapper.SerialOk)

/-- No step changes the ROM contents, the shape of the cartridge, the kind of its mapper or the parameters (10_state.md
R23, 00_scope.md R4). -/
def Obligations.NoStepChangesTheHardware : Prop :=
  ∀ s t : State, step s = .next t → SameHardware s t
end

