-- ==== Sys2Proof/Laws/Mem.lean ====
section
/-! SUPPORT. The laws of sparse arrays: what a location holds after a write, and that writing keeps the canonical form. -/

namespace Sys2Proof.Machine

variable {α : Type}

@[simp] theorem Sparse.read_nil (d : α) (k : Nat) : Sparse.read d [] k = d := rfl

theorem Sparse.read_of_lt {d : α} {m : List (Nat × α)} {k : Nat} (h : ∀ c ∈ m, k < c.1) : Sparse.read d m k = d := by
  induction m with
  | nil => rfl
  | cons c rest ih =>
    have hc : k < c.1 := h c (List.mem_cons_self ..)
    simp only [Sparse.read]
    rw [if_neg (by omega)]
    exact ih fun c' hc' => h c' (List.mem_cons_of_mem _ hc')

theorem Sparse.read_insert (d v : α) (m : List (Nat × α)) (k j : Nat) :
    Sparse.read d (Sparse.insert k v m) j = if k = j then v else Sparse.read d m j := by
  induction m with
  | nil => simp [Sparse.insert, Sparse.read]
  | cons c rest ih =>
    obtain ⟨k0, v0⟩ := c
    simp only [Sparse.insert]
    split
    · simp [Sparse.read]
    · split
      · rename_i hk
        subst hk
        by_cases hj : k = j <;> simp [Sparse.read, hj]
      · simp only [Sparse.read, ih]
        by_cases h1 : k0 = j <;> by_cases h2 : k = j <;> simp [h1, h2]
        omega

theorem Sparse.read_erase (d : α) (m : List (Nat × α)) (k j : Nat) :
    Sparse.read d (Sparse.erase k m) j = if k = j then d else Sparse.read d m j := by
  induction m with
  | nil => simp [Sparse.erase]
  | cons c rest ih =>
    obtain ⟨k0, v0⟩ := c
    simp only [Sparse.erase]
    split
    · rename_i hk
      subst hk
      rw [ih]
      by_cases hj : k0 = j <;> simp [Sparse.read, hj]
    · simp only [Sparse.read, ih]
      by_cases h1 : k0 = j <;> by_cases h2 : k = j <;> simp [h1, h2]
      omega

/-- What a location holds after a write. -/
theorem Sparse.read_write [DecidableEq α] {d v : α} {m : List (Nat × α)} {k j : Nat} :
    Sparse.read d (Sparse.write d m k v) j = if k = j then v else Sparse.read d m j := by
  unfold Sparse.write
  split
  · rename_i hv
    rw [Sparse.read_erase, hv]
  · exact Sparse.read_insert d v m k j

theorem Sparse.mem_insert {k : Nat} {v : α} {m : List (Nat × α)} {c : Nat × α} (h : c ∈ Sparse.insert k v m) :
    c = (k, v) ∨ c ∈ m := by
  induction m with
  | nil => simpa [Sparse.insert] using h
  | cons c0 rest ih =>
    obtain ⟨k0, v0⟩ := c0
    simp only [Sparse.insert] at h
    split at h
    · simpa using h
    · split at h
      · rcases List.mem_cons.mp h with h | h
        · exact .inl h
        · exact .inr (List.mem_cons_of_mem _ h)
      · rcases List.mem_cons.mp h with h | h
        · exact .inr (h ▸ List.mem_cons_self ..)
        · exact (ih h).imp_right (List.mem_cons_of_mem _)

theorem Sparse.pairwise_insert {k : Nat} {v : α} {m : List (Nat × α)} (h : m.Pairwise (fun c c' => c.1 < c'.1)) :
    (Sparse.insert k v m).Pairwise (fun c c' => c.1 < c'.1) := by
  induction m with
  | nil => simp [Sparse.insert]
  | cons c0 rest ih =>
    obtain ⟨k0, v0⟩ := c0
    obtain ⟨hhead, htail⟩ := List.pairwise_cons.mp h
    simp only [Sparse.insert]
    split
    · rename_i hlt
      refine List.pairwise_cons.mpr ⟨fun c hc => ?_, h⟩
      rcases List.mem_cons.mp hc with rfl | hc
      · exact hlt
      · exact Nat.lt_trans hlt (hhead c hc)
    · split
      · rename_i hk
        subst hk
        exact List.pairwise_cons.mpr ⟨hhead, htail⟩
      · refine List.pairwise_cons.mpr ⟨fun c hc => ?_, ih htail⟩
        rcases Sparse.mem_insert hc with rfl | hc
        · show k0 < k
          omega
        · exact hhead c hc

theorem Sparse.erase_sublist (k : Nat) (m : List (Nat × α)) : (Sparse.erase k m).Sublist m := by
  induction m with
  | nil => exact List.Sublist.slnil
  | cons c0 rest ih =>
    obtain ⟨k0, v0⟩ := c0
    simp only [Sparse.erase]
    split
    · exact ih.cons _
    · exact ih.cons_cons _

/-- A write inside the array keeps the canonical form. -/
theorem Sparse.wf_write [DecidableEq α] {d v : α} {size k : Nat} {m : List (Nat × α)} (hk : k < size)
    (h : Sparse.wf d size m) : Sparse.wf d size (Sparse.write d m k v) := by
  unfold Sparse.write
  split
  · exact ⟨h.1.sublist (Sparse.erase_sublist k m), fun c hc => h.2 c ((Sparse.erase_sublist k m).subset hc)⟩
  · rename_i hv
    refine ⟨Sparse.pairwise_insert h.1, fun c hc => ?_⟩
    rcases Sparse.mem_insert hc with rfl | hc
    · exact ⟨hk, hv⟩
    · exact h.2 c hc

theorem Memory.read_write {k j : Nat} {v : Byte} {m : Memory} :
    (m.write k v).read j = if k = j then v else m.read j := Sparse.read_write

@[simp] theorem Memory.read_write_same {k : Nat} {v : Byte} {m : Memory} : (m.write k v).read k = v := by
  rw [Memory.read_write, if_pos rfl]

theorem Memory.read_write_other {k j : Nat} {v : Byte} {m : Memory} (hk : k ≠ j) :
    (m.write k v).read j = m.read j := by rw [Memory.read_write, if_neg hk]

theorem Memory.wf_write {size k : Nat} {v : Byte} {m : Memory} (hk : k < size) (h : Memory.wf size m) :
    Memory.wf size (m.write k v) := Sparse.wf_write hk h

/-- Two arrays in canonical form that agree at every location are the same list. -/
theorem Sparse.ext {d : α} {size : Nat} {m n : List (Nat × α)} (hm : Sparse.wf d size m) (hn : Sparse.wf d size n)
    (h : ∀ k, Sparse.read d m k = Sparse.read d n k) : m = n := by
  induction m generalizing n with
  | nil =>
    cases n with
    | nil => rfl
    | cons c rest =>
      have := h c.1
      simp only [Sparse.read, if_pos] at this
      exact absurd this.symm (hn.2 c (List.mem_cons_self ..)).2
  | cons c rest ih =>
    cases n with
    | nil =>
      have := h c.1
      simp only [Sparse.read, if_pos] at this
      exact absurd this (hm.2 c (List.mem_cons_self ..)).2
    | cons c' rest' =>
      obtain ⟨hm1, hm2⟩ := List.pairwise_cons.mp hm.1
      obtain ⟨hn1, hn2⟩ := List.pairwise_cons.mp hn.1
      have hkey : c.1 = c'.1 := by
        rcases Nat.lt_trichotomy c.1 c'.1 with hlt | heq | hlt
        · have hc := h c.1
          have h0 : Sparse.read d (c' :: rest') c.1 = d := Sparse.read_of_lt fun b hb => by
            rcases List.mem_cons.mp hb with rfl | hb
            · exact hlt
            · exact Nat.lt_trans hlt (hn1 b hb)
          rw [h0] at hc
          simp only [Sparse.read, if_pos] at hc
          exact absurd hc (hm.2 c (List.mem_cons_self ..)).2
        · exact heq
        · have hc := h c'.1
          have h0 : Sparse.read d (c :: rest) c'.1 = d := Sparse.read_of_lt fun b hb => by
            rcases List.mem_cons.mp hb with rfl | hb
            · exact hlt
            · exact Nat.lt_trans hlt (hm1 b hb)
          rw [h0] at hc
          simp only [Sparse.read, if_pos] at hc
          exact absurd hc.symm (hn.2 c' (List.mem_cons_self ..)).2
      have hval : c.2 = c'.2 := by
        have hc := h c.1
        simpa [Sparse.read, hkey] using hc
      have hcc : c = c' := Prod.ext hkey hval
      subst hcc
      congr 1
      refine ih ⟨hm2, fun b hb => hm.2 b (List.mem_cons_of_mem _ hb)⟩
        ⟨hn2, fun b hb => hn.2 b (List.mem_cons_of_mem _ hb)⟩ fun k => ?_
      by_cases hk : c.1 = k
      · subst hk
        rw [Sparse.read_of_lt hm1, Sparse.read_of_lt hn1]
      · have := h k
        simpa [Sparse.read, hk] using this

end Sys2Proof.Machine
end

