-- ==== Sys2Proof/Laws/State.lean ====
section
/-! SUPPORT. One lemma for each field after each update of the state, so that no later proof unfolds an update. -/

namespace Sys2Proof

/-! The scanline numbers of the one layout (61_ppu.md R261). -/

@[simp] theorem Config.PpuLayout.vblLine_eq (l : Config.PpuLayout) : l.vblLine = 0 := rfl
@[simp] theorem Config.PpuLayout.preLine_eq (l : Config.PpuLayout) : l.preLine = 20 := rfl
@[simp] theorem Config.PpuLayout.firstVisible_eq (l : Config.PpuLayout) : l.firstVisible = 21 := rfl
@[simp] theorem Config.PpuLayout.postLine_eq (l : Config.PpuLayout) : l.postLine = 261 := rfl

end Sys2Proof

namespace Sys2Proof.Machine

@[simp] theorem State.charge_a (n : Nat) (s : State) : (s.charge n).a = s.a := rfl
@[simp] theorem State.charge_x (n : Nat) (s : State) : (s.charge n).x = s.x := rfl
@[simp] theorem State.charge_y (n : Nat) (s : State) : (s.charge n).y = s.y := rfl
@[simp] theorem State.charge_sp (n : Nat) (s : State) : (s.charge n).sp = s.sp := rfl
@[simp] theorem State.charge_p (n : Nat) (s : State) : (s.charge n).p = s.p := rfl
@[simp] theorem State.charge_pc (n : Nat) (s : State) : (s.charge n).pc = s.pc := rfl
@[simp] theorem State.charge_pending (n : Nat) (s : State) : (s.charge n).pending = s.pending := rfl
@[simp] theorem State.charge_cyc (n : Nat) (s : State) : (s.charge n).cyc = s.cyc + n := rfl
@[simp] theorem State.charge_ram (n : Nat) (s : State) : (s.charge n).ram = s.ram := rfl
@[simp] theorem State.charge_ppu (n : Nat) (s : State) : (s.charge n).ppu = s.ppu := rfl
@[simp] theorem State.charge_apu (n : Nat) (s : State) : (s.charge n).apu = s.apu := rfl
@[simp] theorem State.charge_cart (n : Nat) (s : State) : (s.charge n).cart = s.cart := rfl
@[simp] theorem State.charge_ports (n : Nat) (s : State) : (s.charge n).ports = s.ports := rfl
@[simp] theorem State.charge_params (n : Nat) (s : State) : (s.charge n).params = s.params := rfl
@[simp] theorem State.charge_dmaDraws (n : Nat) (s : State) : (s.charge n).dmaDraws = s.dmaDraws := rfl

@[simp] theorem State.setNZ_a (v : Byte) (s : State) : (s.setNZ v).a = s.a := rfl
@[simp] theorem State.setNZ_x (v : Byte) (s : State) : (s.setNZ v).x = s.x := rfl
@[simp] theorem State.setNZ_y (v : Byte) (s : State) : (s.setNZ v).y = s.y := rfl
@[simp] theorem State.setNZ_sp (v : Byte) (s : State) : (s.setNZ v).sp = s.sp := rfl
@[simp] theorem State.setNZ_p (v : Byte) (s : State) : (s.setNZ v).p = putNZ v s.p := rfl
@[simp] theorem State.setNZ_pc (v : Byte) (s : State) : (s.setNZ v).pc = s.pc := rfl
@[simp] theorem State.setNZ_pending (v : Byte) (s : State) : (s.setNZ v).pending = s.pending := rfl
@[simp] theorem State.setNZ_cyc (v : Byte) (s : State) : (s.setNZ v).cyc = s.cyc := rfl
@[simp] theorem State.setNZ_ram (v : Byte) (s : State) : (s.setNZ v).ram = s.ram := rfl
@[simp] theorem State.setNZ_ppu (v : Byte) (s : State) : (s.setNZ v).ppu = s.ppu := rfl
@[simp] theorem State.setNZ_apu (v : Byte) (s : State) : (s.setNZ v).apu = s.apu := rfl
@[simp] theorem State.setNZ_cart (v : Byte) (s : State) : (s.setNZ v).cart = s.cart := rfl
@[simp] theorem State.setNZ_ports (v : Byte) (s : State) : (s.setNZ v).ports = s.ports := rfl
@[simp] theorem State.setNZ_params (v : Byte) (s : State) : (s.setNZ v).params = s.params := rfl
@[simp] theorem State.setNZ_dmaDraws (v : Byte) (s : State) : (s.setNZ v).dmaDraws = s.dmaDraws := rfl

@[simp] theorem State.setC_a (b : Bool) (s : State) : (s.setC b).a = s.a := rfl
@[simp] theorem State.setC_x (b : Bool) (s : State) : (s.setC b).x = s.x := rfl
@[simp] theorem State.setC_y (b : Bool) (s : State) : (s.setC b).y = s.y := rfl
@[simp] theorem State.setC_sp (b : Bool) (s : State) : (s.setC b).sp = s.sp := rfl
@[simp] theorem State.setC_p (b : Bool) (s : State) : (s.setC b).p = putC b s.p := rfl
@[simp] theorem State.setC_pc (b : Bool) (s : State) : (s.setC b).pc = s.pc := rfl
@[simp] theorem State.setC_pending (b : Bool) (s : State) : (s.setC b).pending = s.pending := rfl
@[simp] theorem State.setC_cyc (b : Bool) (s : State) : (s.setC b).cyc = s.cyc := rfl
@[simp] theorem State.setC_ram (b : Bool) (s : State) : (s.setC b).ram = s.ram := rfl
@[simp] theorem State.setC_ppu (b : Bool) (s : State) : (s.setC b).ppu = s.ppu := rfl
@[simp] theorem State.setC_apu (b : Bool) (s : State) : (s.setC b).apu = s.apu := rfl
@[simp] theorem State.setC_cart (b : Bool) (s : State) : (s.setC b).cart = s.cart := rfl
@[simp] theorem State.setC_ports (b : Bool) (s : State) : (s.setC b).ports = s.ports := rfl
@[simp] theorem State.setC_params (b : Bool) (s : State) : (s.setC b).params = s.params := rfl
@[simp] theorem State.setC_dmaDraws (b : Bool) (s : State) : (s.setC b).dmaDraws = s.dmaDraws := rfl

@[simp] theorem State.compare_a (r m : Byte) (s : State) : (s.compare r m).a = s.a := rfl
@[simp] theorem State.compare_x (r m : Byte) (s : State) : (s.compare r m).x = s.x := rfl
@[simp] theorem State.compare_y (r m : Byte) (s : State) : (s.compare r m).y = s.y := rfl
@[simp] theorem State.compare_sp (r m : Byte) (s : State) : (s.compare r m).sp = s.sp := rfl
@[simp] theorem State.compare_p (r m : Byte) (s : State) : (s.compare r m).p = putNZ (r - m) (putC (decide (m.toNat ≤ r.toNat)) s.p) := rfl
@[simp] theorem State.compare_pc (r m : Byte) (s : State) : (s.compare r m).pc = s.pc := rfl
@[simp] theorem State.compare_pending (r m : Byte) (s : State) : (s.compare r m).pending = s.pending := rfl
@[simp] theorem State.compare_cyc (r m : Byte) (s : State) : (s.compare r m).cyc = s.cyc := rfl
@[simp] theorem State.compare_ram (r m : Byte) (s : State) : (s.compare r m).ram = s.ram := rfl
@[simp] theorem State.compare_ppu (r m : Byte) (s : State) : (s.compare r m).ppu = s.ppu := rfl
@[simp] theorem State.compare_apu (r m : Byte) (s : State) : (s.compare r m).apu = s.apu := rfl
@[simp] theorem State.compare_cart (r m : Byte) (s : State) : (s.compare r m).cart = s.cart := rfl
@[simp] theorem State.compare_ports (r m : Byte) (s : State) : (s.compare r m).ports = s.ports := rfl
@[simp] theorem State.compare_params (r m : Byte) (s : State) : (s.compare r m).params = s.params := rfl
@[simp] theorem State.compare_dmaDraws (r m : Byte) (s : State) : (s.compare r m).dmaDraws = s.dmaDraws := rfl

@[simp] theorem State.adc_x (m : Byte) (s : State) : (s.adc m).x = s.x := rfl
@[simp] theorem State.adc_y (m : Byte) (s : State) : (s.adc m).y = s.y := rfl
@[simp] theorem State.adc_sp (m : Byte) (s : State) : (s.adc m).sp = s.sp := rfl
@[simp] theorem State.adc_pc (m : Byte) (s : State) : (s.adc m).pc = s.pc := rfl
@[simp] theorem State.adc_pending (m : Byte) (s : State) : (s.adc m).pending = s.pending := rfl
@[simp] theorem State.adc_cyc (m : Byte) (s : State) : (s.adc m).cyc = s.cyc := rfl
@[simp] theorem State.adc_ram (m : Byte) (s : State) : (s.adc m).ram = s.ram := rfl
@[simp] theorem State.adc_ppu (m : Byte) (s : State) : (s.adc m).ppu = s.ppu := rfl
@[simp] theorem State.adc_apu (m : Byte) (s : State) : (s.adc m).apu = s.apu := rfl
@[simp] theorem State.adc_cart (m : Byte) (s : State) : (s.adc m).cart = s.cart := rfl
@[simp] theorem State.adc_ports (m : Byte) (s : State) : (s.adc m).ports = s.ports := rfl
@[simp] theorem State.adc_params (m : Byte) (s : State) : (s.adc m).params = s.params := rfl
@[simp] theorem State.adc_dmaDraws (m : Byte) (s : State) : (s.adc m).dmaDraws = s.dmaDraws := rfl

@[simp] theorem State.sbc_x (m : Byte) (s : State) : (s.sbc m).x = s.x := rfl
@[simp] theorem State.sbc_y (m : Byte) (s : State) : (s.sbc m).y = s.y := rfl
@[simp] theorem State.sbc_sp (m : Byte) (s : State) : (s.sbc m).sp = s.sp := rfl
@[simp] theorem State.sbc_pc (m : Byte) (s : State) : (s.sbc m).pc = s.pc := rfl
@[simp] theorem State.sbc_pending (m : Byte) (s : State) : (s.sbc m).pending = s.pending := rfl
@[simp] theorem State.sbc_cyc (m : Byte) (s : State) : (s.sbc m).cyc = s.cyc := rfl
@[simp] theorem State.sbc_ram (m : Byte) (s : State) : (s.sbc m).ram = s.ram := rfl
@[simp] theorem State.sbc_ppu (m : Byte) (s : State) : (s.sbc m).ppu = s.ppu := rfl
@[simp] theorem State.sbc_apu (m : Byte) (s : State) : (s.sbc m).apu = s.apu := rfl
@[simp] theorem State.sbc_cart (m : Byte) (s : State) : (s.sbc m).cart = s.cart := rfl
@[simp] theorem State.sbc_ports (m : Byte) (s : State) : (s.sbc m).ports = s.ports := rfl
@[simp] theorem State.sbc_params (m : Byte) (s : State) : (s.sbc m).params = s.params := rfl
@[simp] theorem State.sbc_dmaDraws (m : Byte) (s : State) : (s.sbc m).dmaDraws = s.dmaDraws := rfl

@[simp] theorem State.request_a (k : Interrupt) (s : State) : (s.request k).a = s.a := rfl
@[simp] theorem State.request_x (k : Interrupt) (s : State) : (s.request k).x = s.x := rfl
@[simp] theorem State.request_y (k : Interrupt) (s : State) : (s.request k).y = s.y := rfl
@[simp] theorem State.request_sp (k : Interrupt) (s : State) : (s.request k).sp = s.sp := rfl
@[simp] theorem State.request_p (k : Interrupt) (s : State) : (s.request k).p = s.p := rfl
@[simp] theorem State.request_pc (k : Interrupt) (s : State) : (s.request k).pc = s.pc := rfl
@[simp] theorem State.request_pending (k : Interrupt) (s : State) : (s.request k).pending = mergeRequest k s.pending := rfl
@[simp] theorem State.request_cyc (k : Interrupt) (s : State) : (s.request k).cyc = s.cyc := rfl
@[simp] theorem State.request_ram (k : Interrupt) (s : State) : (s.request k).ram = s.ram := rfl
@[simp] theorem State.request_ppu (k : Interrupt) (s : State) : (s.request k).ppu = s.ppu := rfl
@[simp] theorem State.request_apu (k : Interrupt) (s : State) : (s.request k).apu = s.apu := rfl
@[simp] theorem State.request_cart (k : Interrupt) (s : State) : (s.request k).cart = s.cart := rfl
@[simp] theorem State.request_ports (k : Interrupt) (s : State) : (s.request k).ports = s.ports := rfl
@[simp] theorem State.request_params (k : Interrupt) (s : State) : (s.request k).params = s.params := rfl
@[simp] theorem State.request_dmaDraws (k : Interrupt) (s : State) : (s.request k).dmaDraws = s.dmaDraws := rfl

@[simp] theorem State.touchPpu_a (a : PpuAddr) (s : State) : (s.touchPpu a).a = s.a := rfl
@[simp] theorem State.touchPpu_x (a : PpuAddr) (s : State) : (s.touchPpu a).x = s.x := rfl
@[simp] theorem State.touchPpu_y (a : PpuAddr) (s : State) : (s.touchPpu a).y = s.y := rfl
@[simp] theorem State.touchPpu_sp (a : PpuAddr) (s : State) : (s.touchPpu a).sp = s.sp := rfl
@[simp] theorem State.touchPpu_p (a : PpuAddr) (s : State) : (s.touchPpu a).p = s.p := rfl
@[simp] theorem State.touchPpu_pc (a : PpuAddr) (s : State) : (s.touchPpu a).pc = s.pc := rfl
@[simp] theorem State.touchPpu_pending (a : PpuAddr) (s : State) : (s.touchPpu a).pending = mergeIf (s.observe a).2 .irq s.pending := rfl
@[simp] theorem State.touchPpu_cyc (a : PpuAddr) (s : State) : (s.touchPpu a).cyc = s.cyc := rfl
@[simp] theorem State.touchPpu_ram (a : PpuAddr) (s : State) : (s.touchPpu a).ram = s.ram := rfl
@[simp] theorem State.touchPpu_ppu (a : PpuAddr) (s : State) : (s.touchPpu a).ppu = s.ppu := rfl
@[simp] theorem State.touchPpu_apu (a : PpuAddr) (s : State) : (s.touchPpu a).apu = s.apu := rfl
@[simp] theorem State.touchPpu_cart (a : PpuAddr) (s : State) : (s.touchPpu a).cart = (s.observe a).1 := rfl
@[simp] theorem State.touchPpu_ports (a : PpuAddr) (s : State) : (s.touchPpu a).ports = s.ports := rfl
@[simp] theorem State.touchPpu_params (a : PpuAddr) (s : State) : (s.touchPpu a).params = s.params := rfl
@[simp] theorem State.touchPpu_dmaDraws (a : PpuAddr) (s : State) : (s.touchPpu a).dmaDraws = s.dmaDraws := rfl

@[simp] theorem State.passMasked_a (s : State) : (s.passMasked).a = s.a := rfl
@[simp] theorem State.passMasked_x (s : State) : (s.passMasked).x = s.x := rfl
@[simp] theorem State.passMasked_y (s : State) : (s.passMasked).y = s.y := rfl
@[simp] theorem State.passMasked_sp (s : State) : (s.passMasked).sp = s.sp := rfl
@[simp] theorem State.passMasked_p (s : State) : (s.passMasked).p = s.p := rfl
@[simp] theorem State.passMasked_pc (s : State) : (s.passMasked).pc = s.pc := rfl
@[simp] theorem State.passMasked_cyc (s : State) : (s.passMasked).cyc = s.cyc := rfl
@[simp] theorem State.passMasked_ram (s : State) : (s.passMasked).ram = s.ram := rfl
@[simp] theorem State.passMasked_ppu (s : State) : (s.passMasked).ppu = s.ppu := rfl
@[simp] theorem State.passMasked_apu (s : State) : (s.passMasked).apu = s.apu := rfl
@[simp] theorem State.passMasked_cart (s : State) : (s.passMasked).cart = s.cart := rfl
@[simp] theorem State.passMasked_ports (s : State) : (s.passMasked).ports = s.ports := rfl
@[simp] theorem State.passMasked_params (s : State) : (s.passMasked).params = s.params := rfl
@[simp] theorem State.passMasked_dmaDraws (s : State) : (s.passMasked).dmaDraws = s.dmaDraws := rfl
end Sys2Proof.Machine
end

