-- ==== Sys2Proof/Laws/Bus.lean ====
section
/-! SUPPORT. What a bus access can do: the fields a read or a write keeps, reads without a side effect, RAM as memory. -/

namespace Sys2Proof.Machine

/-! ## Fields that a read keeps -/

@[simp] theorem State.touchPpuRegister_a (r : BitVec 3) (s : State) : (s.touchPpuRegister r).a = s.a := by
  unfold State.touchPpuRegister; split <;> rfl

@[simp] theorem State.touchPpuRegister_x (r : BitVec 3) (s : State) : (s.touchPpuRegister r).x = s.x := by
  unfold State.touchPpuRegister; split <;> rfl

@[simp] theorem State.touchPpuRegister_y (r : BitVec 3) (s : State) : (s.touchPpuRegister r).y = s.y := by
  unfold State.touchPpuRegister; split <;> rfl

@[simp] theorem State.touchPpuRegister_sp (r : BitVec 3) (s : State) : (s.touchPpuRegister r).sp = s.sp := by
  unfold State.touchPpuRegister; split <;> rfl

@[simp] theorem State.touchPpuRegister_p (r : BitVec 3) (s : State) : (s.touchPpuRegister r).p = s.p := by
  unfold State.touchPpuRegister; split <;> rfl

@[simp] theorem State.touchPpuRegister_pc (r : BitVec 3) (s : State) : (s.touchPpuRegister r).pc = s.pc := by
  unfold State.touchPpuRegister; split <;> rfl

@[simp] theorem State.touchPpuRegister_cyc (r : BitVec 3) (s : State) : (s.touchPpuRegister r).cyc = s.cyc := by
  unfold State.touchPpuRegister; split <;> rfl

@[simp] theorem State.touchPpuRegister_ram (r : BitVec 3) (s : State) : (s.touchPpuRegister r).ram = s.ram := by
  unfold State.touchPpuRegister; split <;> rfl

@[simp] theorem State.touchPpuRegister_params (r : BitVec 3) (s : State) : (s.touchPpuRegister r).params = s.params := by
  unfold State.touchPpuRegister; split <;> rfl

@[simp] theorem State.touchPpuRegister_dmaDraws (r : BitVec 3) (s : State) : (s.touchPpuRegister r).dmaDraws = s.dmaDraws := by
  unfold State.touchPpuRegister; split <;> rfl

@[simp] theorem State.touch_a (a : Addr) (s : State) : (s.touch a).a = s.a := by
  unfold State.touch; split <;> simp

@[simp] theorem State.touch_x (a : Addr) (s : State) : (s.touch a).x = s.x := by
  unfold State.touch; split <;> simp

@[simp] theorem State.touch_y (a : Addr) (s : State) : (s.touch a).y = s.y := by
  unfold State.touch; split <;> simp

@[simp] theorem State.touch_sp (a : Addr) (s : State) : (s.touch a).sp = s.sp := by
  unfold State.touch; split <;> simp

@[simp] theorem State.touch_p (a : Addr) (s : State) : (s.touch a).p = s.p := by
  unfold State.touch; split <;> simp

@[simp] theorem State.touch_pc (a : Addr) (s : State) : (s.touch a).pc = s.pc := by
  unfold State.touch; split <;> simp

@[simp] theorem State.touch_cyc (a : Addr) (s : State) : (s.touch a).cyc = s.cyc := by
  unfold State.touch; split <;> simp

@[simp] theorem State.touch_ram (a : Addr) (s : State) : (s.touch a).ram = s.ram := by
  unfold State.touch; split <;> simp

@[simp] theorem State.touch_params (a : Addr) (s : State) : (s.touch a).params = s.params := by
  unfold State.touch; split <;> simp

@[simp] theorem State.touch_dmaDraws (a : Addr) (s : State) : (s.touch a).dmaDraws = s.dmaDraws := by
  unfold State.touch; split <;> simp

/-! ## Fields that a write keeps -/

@[simp] theorem State.writePpu_a (a : PpuAddr) (b : Byte) (s : State) : (s.writePpu a b).a = s.a := by
  unfold State.writePpu; split
  · rfl
  · split
    · dsimp only; split <;> rfl
    · rfl

@[simp] theorem State.writePpu_x (a : PpuAddr) (b : Byte) (s : State) : (s.writePpu a b).x = s.x := by
  unfold State.writePpu; split
  · rfl
  · split
    · dsimp only; split <;> rfl
    · rfl

@[simp] theorem State.writePpu_y (a : PpuAddr) (b : Byte) (s : State) : (s.writePpu a b).y = s.y := by
  unfold State.writePpu; split
  · rfl
  · split
    · dsimp only; split <;> rfl
    · rfl

@[simp] theorem State.writePpu_sp (a : PpuAddr) (b : Byte) (s : State) : (s.writePpu a b).sp = s.sp := by
  unfold State.writePpu; split
  · rfl
  · split
    · dsimp only; split <;> rfl
    · rfl

@[simp] theorem State.writePpu_p (a : PpuAddr) (b : Byte) (s : State) : (s.writePpu a b).p = s.p := by
  unfold State.writePpu; split
  · rfl
  · split
    · dsimp only; split <;> rfl
    · rfl

@[simp] theorem State.writePpu_pc (a : PpuAddr) (b : Byte) (s : State) : (s.writePpu a b).pc = s.pc := by
  unfold State.writePpu; split
  · rfl
  · split
    · dsimp only; split <;> rfl
    · rfl

@[simp] theorem State.writePpu_cyc (a : PpuAddr) (b : Byte) (s : State) : (s.writePpu a b).cyc = s.cyc := by
  unfold State.writePpu; split
  · rfl
  · split
    · dsimp only; split <;> rfl
    · rfl

@[simp] theorem State.writePpu_params (a : PpuAddr) (b : Byte) (s : State) : (s.writePpu a b).params = s.params := by
  unfold State.writePpu; split
  · rfl
  · split
    · dsimp only; split <;> rfl
    · rfl

@[simp] theorem State.writePpu_ram (a : PpuAddr) (b : Byte) (s : State) : (s.writePpu a b).ram = s.ram := by
  unfold State.writePpu; split
  · rfl
  · split
    · dsimp only; split <;> rfl
    · rfl

@[simp] theorem State.writePpu_dmaDraws (a : PpuAddr) (b : Byte) (s : State) : (s.writePpu a b).dmaDraws = s.dmaDraws := by
  unfold State.writePpu; split
  · rfl
  · split
    · dsimp only; split <;> rfl
    · rfl

@[simp] theorem State.writePpuRegister_a (r : BitVec 3) (b : Byte) (s : State) :
    (s.writePpuRegister r b).a = s.a := by
  unfold State.writePpuRegister; split <;> simp [State.writeData]

@[simp] theorem State.writePpuRegister_x (r : BitVec 3) (b : Byte) (s : State) :
    (s.writePpuRegister r b).x = s.x := by
  unfold State.writePpuRegister; split <;> simp [State.writeData]

@[simp] theorem State.writePpuRegister_y (r : BitVec 3) (b : Byte) (s : State) :
    (s.writePpuRegister r b).y = s.y := by
  unfold State.writePpuRegister; split <;> simp [State.writeData]

@[simp] theorem State.writePpuRegister_sp (r : BitVec 3) (b : Byte) (s : State) :
    (s.writePpuRegister r b).sp = s.sp := by
  unfold State.writePpuRegister; split <;> simp [State.writeData]

@[simp] theorem State.writePpuRegister_p (r : BitVec 3) (b : Byte) (s : State) :
    (s.writePpuRegister r b).p = s.p := by
  unfold State.writePpuRegister; split <;> simp [State.writeData]

@[simp] theorem State.writePpuRegister_pc (r : BitVec 3) (b : Byte) (s : State) :
    (s.writePpuRegister r b).pc = s.pc := by
  unfold State.writePpuRegister; split <;> simp [State.writeData]

@[simp] theorem State.writePpuRegister_cyc (r : BitVec 3) (b : Byte) (s : State) :
    (s.writePpuRegister r b).cyc = s.cyc := by
  unfold State.writePpuRegister; split <;> simp [State.writeData]

@[simp] theorem State.writePpuRegister_params (r : BitVec 3) (b : Byte) (s : State) :
    (s.writePpuRegister r b).params = s.params := by
  unfold State.writePpuRegister; split <;> simp [State.writeData]

@[simp] theorem State.writePpuRegister_ram (r : BitVec 3) (b : Byte) (s : State) :
    (s.writePpuRegister r b).ram = s.ram := by
  unfold State.writePpuRegister; split <;> simp [State.writeData]

@[simp] theorem State.writePpuRegister_dmaDraws (r : BitVec 3) (b : Byte) (s : State) :
    (s.writePpuRegister r b).dmaDraws = s.dmaDraws := by
  unfold State.writePpuRegister; split <;> simp [State.writeData]

@[simp] theorem oamDmaCopy_a (page : Byte) (k : Nat) (s : State) : (oamDmaCopy page k s).a = s.a := by
  induction k generalizing s with
  | zero => rfl
  | succ k ih => simp only [oamDmaCopy, State.memRead]; rw [ih]; simp

@[simp] theorem oamDmaCopy_x (page : Byte) (k : Nat) (s : State) : (oamDmaCopy page k s).x = s.x := by
  induction k generalizing s with
  | zero => rfl
  | succ k ih => simp only [oamDmaCopy, State.memRead]; rw [ih]; simp

@[simp] theorem oamDmaCopy_y (page : Byte) (k : Nat) (s : State) : (oamDmaCopy page k s).y = s.y := by
  induction k generalizing s with
  | zero => rfl
  | succ k ih => simp only [oamDmaCopy, State.memRead]; rw [ih]; simp

@[simp] theorem oamDmaCopy_sp (page : Byte) (k : Nat) (s : State) : (oamDmaCopy page k s).sp = s.sp := by
  induction k generalizing s with
  | zero => rfl
  | succ k ih => simp only [oamDmaCopy, State.memRead]; rw [ih]; simp

@[simp] theorem oamDmaCopy_p (page : Byte) (k : Nat) (s : State) : (oamDmaCopy page k s).p = s.p := by
  induction k generalizing s with
  | zero => rfl
  | succ k ih => simp only [oamDmaCopy, State.memRead]; rw [ih]; simp

@[simp] theorem oamDmaCopy_pc (page : Byte) (k : Nat) (s : State) : (oamDmaCopy page k s).pc = s.pc := by
  induction k generalizing s with
  | zero => rfl
  | succ k ih => simp only [oamDmaCopy, State.memRead]; rw [ih]; simp

@[simp] theorem oamDmaCopy_cyc (page : Byte) (k : Nat) (s : State) : (oamDmaCopy page k s).cyc = s.cyc := by
  induction k generalizing s with
  | zero => rfl
  | succ k ih => simp only [oamDmaCopy, State.memRead]; rw [ih]; simp

@[simp] theorem oamDmaCopy_params (page : Byte) (k : Nat) (s : State) : (oamDmaCopy page k s).params = s.params := by
  induction k generalizing s with
  | zero => rfl
  | succ k ih => simp only [oamDmaCopy, State.memRead]; rw [ih]; simp

@[simp] theorem oamDmaCopy_ram (page : Byte) (k : Nat) (s : State) : (oamDmaCopy page k s).ram = s.ram := by
  induction k generalizing s with
  | zero => rfl
  | succ k ih => simp only [oamDmaCopy, State.memRead]; rw [ih]; simp

@[simp] theorem oamDmaCopy_dmaDraws (page : Byte) (k : Nat) (s : State) : (oamDmaCopy page k s).dmaDraws = s.dmaDraws := by
  induction k generalizing s with
  | zero => rfl
  | succ k ih => simp only [oamDmaCopy, State.memRead]; rw [ih]; simp

@[simp] theorem State.memWrite_a (a : Addr) (b : Byte) (s : State) : (s.memWrite a b).1.a = s.a := by
  unfold State.memWrite; split <;> simp [State.oamDma]

@[simp] theorem State.memWrite_x (a : Addr) (b : Byte) (s : State) : (s.memWrite a b).1.x = s.x := by
  unfold State.memWrite; split <;> simp [State.oamDma]

@[simp] theorem State.memWrite_y (a : Addr) (b : Byte) (s : State) : (s.memWrite a b).1.y = s.y := by
  unfold State.memWrite; split <;> simp [State.oamDma]

@[simp] theorem State.memWrite_sp (a : Addr) (b : Byte) (s : State) : (s.memWrite a b).1.sp = s.sp := by
  unfold State.memWrite; split <;> simp [State.oamDma]

@[simp] theorem State.memWrite_p (a : Addr) (b : Byte) (s : State) : (s.memWrite a b).1.p = s.p := by
  unfold State.memWrite; split <;> simp [State.oamDma]

@[simp] theorem State.memWrite_pc (a : Addr) (b : Byte) (s : State) : (s.memWrite a b).1.pc = s.pc := by
  unfold State.memWrite; split <;> simp [State.oamDma]

@[simp] theorem State.memWrite_cyc (a : Addr) (b : Byte) (s : State) : (s.memWrite a b).1.cyc = s.cyc := by
  unfold State.memWrite; split <;> simp [State.oamDma]

@[simp] theorem State.memWrite_params (a : Addr) (b : Byte) (s : State) : (s.memWrite a b).1.params = s.params := by
  unfold State.memWrite; split <;> simp [State.oamDma]

@[simp] theorem State.store_a (a : Addr) (b : Byte) (s : State) : (s.store a b).a = s.a := by
  simp [State.store]

@[simp] theorem State.store_x (a : Addr) (b : Byte) (s : State) : (s.store a b).x = s.x := by
  simp [State.store]

@[simp] theorem State.store_y (a : Addr) (b : Byte) (s : State) : (s.store a b).y = s.y := by
  simp [State.store]

@[simp] theorem State.store_sp (a : Addr) (b : Byte) (s : State) : (s.store a b).sp = s.sp := by
  simp [State.store]

@[simp] theorem State.store_p (a : Addr) (b : Byte) (s : State) : (s.store a b).p = s.p := by
  simp [State.store]

@[simp] theorem State.store_pc (a : Addr) (b : Byte) (s : State) : (s.store a b).pc = s.pc := by
  simp [State.store]

@[simp] theorem State.store_params (a : Addr) (b : Byte) (s : State) : (s.store a b).params = s.params := by
  simp [State.store]

@[simp] theorem State.store_cyc (a : Addr) (b : Byte) (s : State) : (s.store a b).cyc = s.cyc + (s.memWrite a b).2 := by
  simp [State.store]

/-! ## What a read leaves readable -/

@[simp] theorem State.observe_prgRom (s : State) (a : PpuAddr) : (s.observe a).1.prgRom = s.cart.prgRom := by
  unfold State.observe Cart.observeA12; split <;> [split <;> rfl; rfl]

@[simp] theorem State.observe_prgRam (s : State) (a : PpuAddr) : (s.observe a).1.prgRam = s.cart.prgRam := by
  unfold State.observe Cart.observeA12; split <;> [split <;> rfl; rfl]

@[simp] theorem State.observe_prgSlot (s : State) (a : PpuAddr) : (s.observe a).1.prgSlot = s.cart.prgSlot := by
  unfold State.observe Cart.observeA12; split <;> [split <;> rfl; rfl]

/-- What a CPU read of the cartridge gives depends on its PRG memories and slots alone. -/
theorem Cart.readPrg_congr {c c' : Cart} (h1 : c'.prgRom = c.prgRom) (h2 : c'.prgRam = c.prgRam)
    (h3 : c'.prgSlot = c.prgSlot) (a : Addr) : c'.readPrg a = c.readPrg a := by
  unfold Cart.readPrg Cart.prgLocation
  rw [h1, h2, h3]

/-- What a CPU read gives, region by region. -/
theorem State.peek_congr {s t : State} {b : Addr} (hram : t.ram = s.ram)
    (hppu : ∀ r, region b = .ppu r → t.peekPpuRegister r = s.peekPpuRegister r)
    (hapu : region b = .apuStatus → t.apu.statusByte = s.apu.statusByte)
    (hone : region b = .port1 → t.ports.strobe = s.ports.strobe ∧ t.ports.captured1 = s.ports.captured1 ∧
      t.ports.shift1 = s.ports.shift1)
    (htwo : region b = .port2 → t.ports.strobe = s.ports.strobe ∧ t.ports.captured2 = s.ports.captured2 ∧
      t.ports.shift2 = s.ports.shift2)
    (hcart : region b = .cartridge → t.cart.readPrg b = s.cart.readPrg b) : t.peek b = s.peek b := by
  unfold State.peek
  split
  · rw [hram]
  · exact hppu _ ‹_›
  · exact hapu ‹_›
  · obtain ⟨h1, h2, h3⟩ := hone ‹_›
    rw [h1, h2, h3]
  · obtain ⟨h1, h2, h3⟩ := htwo ‹_›
    rw [h1, h2, h3]
  · exact hcart ‹_›
  · rfl
  · rfl
  · rfl

theorem region_eq_apuStatus {a : Addr} : region a = .apuStatus ↔ a = 0x4015#16 := by
  unfold region
  constructor
  · intro h
    iterate 4 split at h <;> [cases h; skip]
    split at h
    · exact BitVec.eq_of_toNat_eq ‹_›
    · split at h <;> [cases h; split at h <;> [cases h; split at h <;> cases h]]
  · rintro rfl
    rfl

theorem region_eq_port1 {a : Addr} : region a = .port1 ↔ a = 0x4016#16 := by
  unfold region
  constructor
  · intro h
    iterate 5 split at h <;> [cases h; skip]
    split at h
    · exact BitVec.eq_of_toNat_eq ‹_›
    · split at h <;> [cases h; split at h <;> cases h]
  · rintro rfl
    rfl

theorem region_eq_port2 {a : Addr} : region a = .port2 ↔ a = 0x4017#16 := by
  unfold region
  constructor
  · intro h
    iterate 6 split at h <;> [cases h; skip]
    split at h
    · exact BitVec.eq_of_toNat_eq ‹_›
    · split at h <;> cases h
  · rintro rfl
    rfl

theorem region_eq_cartridge {a : Addr} : region a = .cartridge ↔ 0x4020 ≤ a.toNat := by
  unfold region
  constructor
  · intro h
    repeat' split at h
    all_goals first | omega | cases h
  · intro h
    iterate 8 rw [if_neg (by omega)]

theorem region_eq_ram {a : Addr} {k : Nat} : region a = .ram k ↔ a.toNat < 0x2000 ∧ k = (a &&& 0x07FF#16).toNat := by
  unfold region
  constructor
  · intro h
    repeat' split at h
    all_goals cases h
    exact ⟨‹_›, rfl⟩
  · rintro ⟨h, rfl⟩
    rw [if_pos h]

/-- A read has a side effect at no other address than those of 20_memory.md R50. -/
theorem State.touch_eq_self {a : Addr} (s : State) (h : readSensitive a = false) : s.touch a = s := by
  unfold readSensitive at h
  unfold State.touch
  split at h <;> simp_all
  rename_i r hr
  unfold State.touchPpuRegister
  split
  · exact absurd (BitVec.eq_of_toNat_eq (y := 2#3) ‹_›) (by simp [h])
  · exact absurd (BitVec.eq_of_toNat_eq (y := 7#3) ‹_›) (by simp [h])
  · rfl

theorem region_ppu {a : Addr} (h1 : 0x2000 ≤ a.toNat) (h2 : a.toNat < 0x4000) :
    region a = .ppu (BitVec.ofNat 3 (a.toNat % 8)) := by
  unfold region
  rw [if_neg (by omega), if_pos h2]
  congr 1
  apply BitVec.eq_of_toNat_eq
  simp

/-- A write of a PPU register through any of its mirrors (20_memory.md R47). -/
theorem State.memWrite_ppu {a : Addr} (b : Byte) (s : State) (h1 : 0x2000 ≤ a.toNat) (h2 : a.toNat < 0x4000) :
    s.memWrite a b = (s.writePpuRegister (BitVec.ofNat 3 (a.toNat % 8)) b, 0) := by
  unfold State.memWrite
  rw [region_ppu h1 h2]

/-- A read of one: the state after it. -/
theorem State.touch_ppu {a : Addr} (s : State) (h1 : 0x2000 ≤ a.toNat) (h2 : a.toNat < 0x4000) :
    s.touch a = s.touchPpuRegister (BitVec.ofNat 3 (a.toNat % 8)) := by
  unfold State.touch
  rw [region_ppu h1 h2]

/-- A read of one: the byte. -/
theorem State.peek_ppu {a : Addr} (s : State) (h1 : 0x2000 ≤ a.toNat) (h2 : a.toNat < 0x4000) :
    s.peek a = s.peekPpuRegister (BitVec.ofNat 3 (a.toNat % 8)) := by
  unfold State.peek
  rw [region_ppu h1 h2]

end Sys2Proof.Machine
end

