-- ==== Sys2Proof/Laws/Cartridge.lean ====
section
/-! SUPPORT. What the bank mux and the mapper registers keep: memories, shape, kind; and that bank indices stay in range. -/

namespace Sys2Proof.Machine

/-! ## Fields -/

@[simp] theorem Cart.setPrg_mapper (b n k : Nat) (c : Cart) : (c.setPrg b n k).mapper = c.mapper := by simp only [Cart.setPrg]
@[simp] theorem Cart.setPrg_prg16k (b n k : Nat) (c : Cart) : (c.setPrg b n k).prg16k = c.prg16k := by simp only [Cart.setPrg]
@[simp] theorem Cart.setPrg_chr8k (b n k : Nat) (c : Cart) : (c.setPrg b n k).chr8k = c.chr8k := by simp only [Cart.setPrg]
@[simp] theorem Cart.setPrg_prgRom (b n k : Nat) (c : Cart) : (c.setPrg b n k).prgRom = c.prgRom := by simp only [Cart.setPrg]
@[simp] theorem Cart.setPrg_prgRam (b n k : Nat) (c : Cart) : (c.setPrg b n k).prgRam = c.prgRam := by simp only [Cart.setPrg]
@[simp] theorem Cart.setPrg_chr (b n k : Nat) (c : Cart) : (c.setPrg b n k).chr = c.chr := by simp only [Cart.setPrg]
@[simp] theorem Cart.setPrg_ntExtra (b n k : Nat) (c : Cart) : (c.setPrg b n k).ntExtra = c.ntExtra := by simp only [Cart.setPrg]
@[simp] theorem Cart.setPrg_battery (b n k : Nat) (c : Cart) : (c.setPrg b n k).battery = c.battery := by simp only [Cart.setPrg]
@[simp] theorem Cart.setPrg_mirroring (b n k : Nat) (c : Cart) : (c.setPrg b n k).mirroring = c.mirroring := by simp only [Cart.setPrg]
@[simp] theorem Cart.setPrg_chrSlot (b n k : Nat) (c : Cart) : (c.setPrg b n k).chrSlot = c.chrSlot := by simp only [Cart.setPrg]
@[simp] theorem Cart.setChr_mapper (b n k : Nat) (c : Cart) : (c.setChr b n k).mapper = c.mapper := by simp only [Cart.setChr]
@[simp] theorem Cart.setChr_prg16k (b n k : Nat) (c : Cart) : (c.setChr b n k).prg16k = c.prg16k := by simp only [Cart.setChr]
@[simp] theorem Cart.setChr_chr8k (b n k : Nat) (c : Cart) : (c.setChr b n k).chr8k = c.chr8k := by simp only [Cart.setChr]
@[simp] theorem Cart.setChr_prgRom (b n k : Nat) (c : Cart) : (c.setChr b n k).prgRom = c.prgRom := by simp only [Cart.setChr]
@[simp] theorem Cart.setChr_prgRam (b n k : Nat) (c : Cart) : (c.setChr b n k).prgRam = c.prgRam := by simp only [Cart.setChr]
@[simp] theorem Cart.setChr_chr (b n k : Nat) (c : Cart) : (c.setChr b n k).chr = c.chr := by simp only [Cart.setChr]
@[simp] theorem Cart.setChr_ntExtra (b n k : Nat) (c : Cart) : (c.setChr b n k).ntExtra = c.ntExtra := by simp only [Cart.setChr]
@[simp] theorem Cart.setChr_battery (b n k : Nat) (c : Cart) : (c.setChr b n k).battery = c.battery := by simp only [Cart.setChr]
@[simp] theorem Cart.setChr_mirroring (b n k : Nat) (c : Cart) : (c.setChr b n k).mirroring = c.mirroring := by simp only [Cart.setChr]
@[simp] theorem Cart.setChr_prgSlot (b n k : Nat) (c : Cart) : (c.setChr b n k).prgSlot = c.prgSlot := by simp only [Cart.setChr]

@[simp] theorem Cart.mmc1Update_prg16k (r : Mmc1) (c : Cart) : (c.mmc1Update r).prg16k = c.prg16k := by
  unfold Cart.mmc1Update; dsimp only; split <;> split <;> simp only [Cart.setPrg_prg16k, Cart.setChr_prg16k]

@[simp] theorem Cart.mmc1Update_chr8k (r : Mmc1) (c : Cart) : (c.mmc1Update r).chr8k = c.chr8k := by
  unfold Cart.mmc1Update; dsimp only; split <;> split <;> simp only [Cart.setPrg_chr8k, Cart.setChr_chr8k]

@[simp] theorem Cart.mmc1Update_prgRom (r : Mmc1) (c : Cart) : (c.mmc1Update r).prgRom = c.prgRom := by
  unfold Cart.mmc1Update; dsimp only; split <;> split <;> simp only [Cart.setPrg_prgRom, Cart.setChr_prgRom]

@[simp] theorem Cart.mmc1Update_prgRam (r : Mmc1) (c : Cart) : (c.mmc1Update r).prgRam = c.prgRam := by
  unfold Cart.mmc1Update; dsimp only; split <;> split <;> simp only [Cart.setPrg_prgRam, Cart.setChr_prgRam]

@[simp] theorem Cart.mmc1Update_chr (r : Mmc1) (c : Cart) : (c.mmc1Update r).chr = c.chr := by
  unfold Cart.mmc1Update; dsimp only; split <;> split <;> simp only [Cart.setPrg_chr, Cart.setChr_chr]

@[simp] theorem Cart.mmc1Update_ntExtra (r : Mmc1) (c : Cart) : (c.mmc1Update r).ntExtra = c.ntExtra := by
  unfold Cart.mmc1Update; dsimp only; split <;> split <;> simp only [Cart.setPrg_ntExtra, Cart.setChr_ntExtra]

@[simp] theorem Cart.mmc1Update_battery (r : Mmc1) (c : Cart) : (c.mmc1Update r).battery = c.battery := by
  unfold Cart.mmc1Update; dsimp only; split <;> split <;> simp only [Cart.setPrg_battery, Cart.setChr_battery]

@[simp] theorem Cart.mmc3Update_prg16k (r : Mmc3) (c : Cart) : (c.mmc3Update r).prg16k = c.prg16k := by
  unfold Cart.mmc3Update; dsimp only; split <;> split <;> simp only [Cart.setPrg_prg16k, Cart.setChr_prg16k]

@[simp] theorem Cart.mmc3Update_chr8k (r : Mmc3) (c : Cart) : (c.mmc3Update r).chr8k = c.chr8k := by
  unfold Cart.mmc3Update; dsimp only; split <;> split <;> simp only [Cart.setPrg_chr8k, Cart.setChr_chr8k]

@[simp] theorem Cart.mmc3Update_prgRom (r : Mmc3) (c : Cart) : (c.mmc3Update r).prgRom = c.prgRom := by
  unfold Cart.mmc3Update; dsimp only; split <;> split <;> simp only [Cart.setPrg_prgRom, Cart.setChr_prgRom]

@[simp] theorem Cart.mmc3Update_prgRam (r : Mmc3) (c : Cart) : (c.mmc3Update r).prgRam = c.prgRam := by
  unfold Cart.mmc3Update; dsimp only; split <;> split <;> simp only [Cart.setPrg_prgRam, Cart.setChr_prgRam]

@[simp] theorem Cart.mmc3Update_chr (r : Mmc3) (c : Cart) : (c.mmc3Update r).chr = c.chr := by
  unfold Cart.mmc3Update; dsimp only; split <;> split <;> simp only [Cart.setPrg_chr, Cart.setChr_chr]

@[simp] theorem Cart.mmc3Update_ntExtra (r : Mmc3) (c : Cart) : (c.mmc3Update r).ntExtra = c.ntExtra := by
  unfold Cart.mmc3Update; dsimp only; split <;> split <;> simp only [Cart.setPrg_ntExtra, Cart.setChr_ntExtra]

@[simp] theorem Cart.mmc3Update_battery (r : Mmc3) (c : Cart) : (c.mmc3Update r).battery = c.battery := by
  unfold Cart.mmc3Update; dsimp only; split <;> split <;> simp only [Cart.setPrg_battery, Cart.setChr_battery]

@[simp] theorem Cart.mmc1Update_mapper (r : Mmc1) (c : Cart) : (c.mmc1Update r).mapper = .mmc1 r := by
  unfold Cart.mmc1Update; dsimp only; split <;> split <;> simp only [Cart.setPrg_mapper, Cart.setChr_mapper]

@[simp] theorem Cart.mmc3Update_mapper (r : Mmc3) (c : Cart) : (c.mmc3Update r).mapper = .mmc3 r := by
  unfold Cart.mmc3Update; dsimp only; split <;> split <;> simp only [Cart.setPrg_mapper, Cart.setChr_mapper]

@[simp] theorem Cart.mapperWrite_prg16k (a : Addr) (b : Byte) (c : Cart) : (c.mapperWrite a b).prg16k = c.prg16k := by
  unfold Cart.mapperWrite Cart.mmc1Write Cart.mmc3Write
  dsimp only
  repeat' first | split | simp only [Cart.setPrg_prg16k, Cart.setChr_prg16k, Cart.mmc1Update_prg16k, Cart.mmc3Update_prg16k]

@[simp] theorem Cart.mapperWrite_chr8k (a : Addr) (b : Byte) (c : Cart) : (c.mapperWrite a b).chr8k = c.chr8k := by
  unfold Cart.mapperWrite Cart.mmc1Write Cart.mmc3Write
  dsimp only
  repeat' first | split | simp only [Cart.setPrg_chr8k, Cart.setChr_chr8k, Cart.mmc1Update_chr8k, Cart.mmc3Update_chr8k]

@[simp] theorem Cart.mapperWrite_prgRom (a : Addr) (b : Byte) (c : Cart) : (c.mapperWrite a b).prgRom = c.prgRom := by
  unfold Cart.mapperWrite Cart.mmc1Write Cart.mmc3Write
  dsimp only
  repeat' first | split | simp only [Cart.setPrg_prgRom, Cart.setChr_prgRom, Cart.mmc1Update_prgRom, Cart.mmc3Update_prgRom]

@[simp] theorem Cart.mapperWrite_prgRam (a : Addr) (b : Byte) (c : Cart) : (c.mapperWrite a b).prgRam = c.prgRam := by
  unfold Cart.mapperWrite Cart.mmc1Write Cart.mmc3Write
  dsimp only
  repeat' first | split | simp only [Cart.setPrg_prgRam, Cart.setChr_prgRam, Cart.mmc1Update_prgRam, Cart.mmc3Update_prgRam]

@[simp] theorem Cart.mapperWrite_chr (a : Addr) (b : Byte) (c : Cart) : (c.mapperWrite a b).chr = c.chr := by
  unfold Cart.mapperWrite Cart.mmc1Write Cart.mmc3Write
  dsimp only
  repeat' first | split | simp only [Cart.setPrg_chr, Cart.setChr_chr, Cart.mmc1Update_chr, Cart.mmc3Update_chr]

@[simp] theorem Cart.mapperWrite_ntExtra (a : Addr) (b : Byte) (c : Cart) : (c.mapperWrite a b).ntExtra = c.ntExtra := by
  unfold Cart.mapperWrite Cart.mmc1Write Cart.mmc3Write
  dsimp only
  repeat' first | split | simp only [Cart.setPrg_ntExtra, Cart.setChr_ntExtra, Cart.mmc1Update_ntExtra, Cart.mmc3Update_ntExtra]

@[simp] theorem Cart.mapperWrite_battery (a : Addr) (b : Byte) (c : Cart) : (c.mapperWrite a b).battery = c.battery := by
  unfold Cart.mapperWrite Cart.mmc1Write Cart.mmc3Write
  dsimp only
  repeat' first | split | simp only [Cart.setPrg_battery, Cart.setChr_battery, Cart.mmc1Update_battery, Cart.mmc3Update_battery]

@[simp] theorem Cart.setPrg_prgBanks (b n k : Nat) (c : Cart) : (c.setPrg b n k).prgBanks = c.prgBanks := by
  simp only [Cart.prgBanks, Cart.setPrg_prg16k]

@[simp] theorem Cart.setChr_prgBanks (b n k : Nat) (c : Cart) : (c.setChr b n k).prgBanks = c.prgBanks := by
  simp only [Cart.prgBanks, Cart.setChr_prg16k]

@[simp] theorem Cart.setPrg_chrIsRam (b n k : Nat) (c : Cart) : (c.setPrg b n k).chrIsRam = c.chrIsRam := by
  simp only [Cart.chrIsRam, Cart.setPrg_chr8k]

@[simp] theorem Cart.setChr_chrIsRam (b n k : Nat) (c : Cart) : (c.setChr b n k).chrIsRam = c.chrIsRam := by
  simp only [Cart.chrIsRam, Cart.setChr_chr8k]

@[simp] theorem Cart.setPrg_chrBanks (b n k : Nat) (c : Cart) : (c.setPrg b n k).chrBanks = c.chrBanks := by
  unfold Cart.chrBanks
  rw [Cart.setPrg_chrIsRam, Cart.setPrg_chr8k]

@[simp] theorem Cart.setChr_chrBanks (b n k : Nat) (c : Cart) : (c.setChr b n k).chrBanks = c.chrBanks := by
  unfold Cart.chrBanks
  rw [Cart.setChr_chrIsRam, Cart.setChr_chr8k]

/-- A slot after `SetPrg` (63_cartridge_bus_driver.md R352). -/
theorem Cart.setPrg_prgSlot (b n k : Nat) (c : Cart) (i : Nat) (h : i < 32) :
    (c.setPrg b n k).prgSlot[i] = if b ≤ i ∧ i < b + n then (k + (i - b)) % c.prgBanks else c.prgSlot[i] := by
  simp only [Cart.setPrg, Vector.getElem_ofFn]
  rfl

/-- A slot after `SetChr` (63_cartridge_bus_driver.md R354). -/
theorem Cart.setChr_chrSlot (b n k : Nat) (c : Cart) (i : Nat) (h : i < 8) :
    (c.setChr b n k).chrSlot[i] = if b ≤ i ∧ i < b + n then (k + (i - b)) % c.chrBanks else c.chrSlot[i] := by
  simp only [Cart.setChr, Vector.getElem_ofFn]
  rfl

theorem Cart.chrBanks_pos (c : Cart) : 0 < c.chrBanks := by
  unfold Cart.chrBanks Cart.chrIsRam
  split
  · decide
  · rename_i h
    have : c.chr8k ≠ 0 := by simpa using h
    omega

/-! ## Bank indices stay in range -/

/-- The range of the bank indices depends on the slots and the shape of the cartridge alone. -/
theorem Cart.BanksOk.congr {c c' : Cart} (h : c.BanksOk) (h1 : c'.prg16k = c.prg16k) (h2 : c'.chr8k = c.chr8k)
    (h3 : c'.prgSlot = c.prgSlot) (h4 : c'.chrSlot = c.chrSlot) : c'.BanksOk := by
  unfold Cart.BanksOk Cart.prgBanks Cart.chrBanks Cart.chrIsRam at *
  rw [h1, h2, h3, h4]
  exact h

theorem Cart.BanksOk.setPrg {c : Cart} (h : c.BanksOk) (b n k : Nat) : (c.setPrg b n k).BanksOk := by
  obtain ⟨h1, h2, h3⟩ := h
  refine ⟨by simpa using h1, fun i hi => ?_, fun i hi => ?_⟩
  · rw [Cart.setPrg_prgSlot, Cart.setPrg_prgBanks]
    split
    · exact Nat.mod_lt _ (by unfold Cart.prgBanks; omega)
    · exact h2 i hi
  · simpa using h3 i hi

theorem Cart.BanksOk.setChr {c : Cart} (h : c.BanksOk) (b n k : Nat) : (c.setChr b n k).BanksOk := by
  obtain ⟨h1, h2, h3⟩ := h
  refine ⟨by simpa using h1, fun i hi => ?_, fun i hi => ?_⟩
  · simpa using h2 i hi
  · rw [Cart.setChr_chrSlot, Cart.setChr_chrBanks]
    split
    · exact Nat.mod_lt _ c.chrBanks_pos
    · exact h3 i hi

theorem Cart.BanksOk.mmc1Update {c : Cart} (h : c.BanksOk) (r : Mmc1) : (c.mmc1Update r).BanksOk := by
  unfold Cart.mmc1Update
  dsimp only
  generalize hm : (match (BitVec.extractLsb' 0 2 r.control).toNat with
    | 0 => Mirroring.oneScreenA
    | 1 => Mirroring.oneScreenB
    | 2 => Mirroring.vertical
    | _ => Mirroring.horizontal) = mir
  have h0 : Cart.BanksOk { c with mapper := .mmc1 r, mirroring := mir } := h.congr rfl rfl rfl rfl
  split <;> split <;>
    (repeat' with_reducible first | apply Cart.BanksOk.setPrg | apply Cart.BanksOk.setChr) <;> exact h0

theorem Cart.BanksOk.mmc3Update {c : Cart} (h : c.BanksOk) (r : Mmc3) : (c.mmc3Update r).BanksOk := by
  unfold Cart.mmc3Update
  dsimp only
  have h0 : Cart.BanksOk { c with mapper := .mmc3 r } := h.congr rfl rfl rfl rfl
  split <;> split <;>
    (repeat' with_reducible first | apply Cart.BanksOk.setPrg | apply Cart.BanksOk.setChr) <;> exact h0

theorem Cart.BanksOk.mapperWrite {c : Cart} (h : c.BanksOk) (a : Addr) (b : Byte) : (c.mapperWrite a b).BanksOk := by
  unfold Cart.mapperWrite
  split
  · exact h
  · exact h.setPrg ..
  · exact (h.setPrg ..).setChr ..
  · unfold Cart.mmc1Write
    split
    · exact h.mmc1Update _
    · dsimp only
      split
      · exact h.mmc1Update _
      · exact h.congr rfl rfl rfl rfl
  · unfold Cart.mmc3Write
    dsimp only
    split
    · split
      · exact h.mmc3Update _
      · exact h.mmc3Update _
    · split
      · exact h.congr rfl rfl rfl rfl
      · split
        · exact h
        · exact h.congr rfl rfl rfl rfl
    · split <;> exact h.congr rfl rfl rfl rfl
    · exact h.congr rfl rfl rfl rfl

/-- Every cartridge is constructed with its bank indices in range (63_cartridge_bus_driver.md R356 to R362). -/
theorem Cart.construct_banksOk (image : CartridgeImage) (h : 1 ≤ image.prg16k) : (Cart.construct image).BanksOk := by
  unfold Cart.construct
  dsimp only
  have hbase (m : Mapper) : Cart.BanksOk
      { mapper := m, prg16k := image.prg16k, chr8k := image.chr8k, prgRom := image.prgRom, prgRam := image.prgRam,
        chr := image.chr, ntExtra := image.ntExtra, battery := image.battery, mirroring := image.mirroring,
        prgSlot := Vector.replicate 32 0, chrSlot := Vector.replicate 8 0 } := by
    refine ⟨h, fun i hi => ?_, fun i hi => ?_⟩
    · simp only [Vector.getElem_replicate, Cart.prgBanks]
      omega
    · simp only [Vector.getElem_replicate]
      exact Cart.chrBanks_pos _
  split
  · exact ((hbase _).setPrg ..).setChr ..
  · exact (((hbase _).setPrg ..).setPrg ..).setChr ..
  · exact ((hbase _).setPrg ..).setChr ..
  · exact (hbase _).mmc1Update _
  · exact (hbase _).mmc3Update _

/-! ## The cartridge's memories stay in canonical form -/

theorem Cart.chrLocation_lt {c : Cart} (h : c.BanksOk) (a : PpuAddr) : c.chrLocation a < 1024 * c.chrBanks := by
  have hslot := h.2.2 (a.extractLsb' 10 3).toNat (a.extractLsb' 10 3).isLt
  have hoff : (a &&& 0x03FF#14).toNat ≤ 0x03FF := by
    rw [BitVec.toNat_and]
    exact Nat.and_le_right
  unfold Cart.chrLocation
  dsimp only
  omega

theorem Cart.prgLocation_lt {c : Cart} (h : c.BanksOk) (a : Addr) : c.prgLocation a < 1024 * c.prgBanks := by
  have hslot := h.2.1 (a.extractLsb' 10 5).toNat (a.extractLsb' 10 5).isLt
  have hoff : (a &&& 0x03FF#16).toNat ≤ 0x03FF := by
    rw [BitVec.toNat_and]
    exact Nat.and_le_right
  unfold Cart.prgLocation
  dsimp only
  omega

/-- The memories' form depends on the memories and the shape of the cartridge alone. -/
theorem Cart.MemoriesOk.congr {c c' : Cart} (h : c.MemoriesOk) (h1 : c'.prg16k = c.prg16k) (h2 : c'.chr8k = c.chr8k)
    (h3 : c'.prgRom = c.prgRom) (h4 : c'.prgRam = c.prgRam) (h5 : c'.chr = c.chr) (h6 : c'.ntExtra = c.ntExtra) :
    c'.MemoriesOk := by
  unfold Cart.MemoriesOk Cart.prgBanks Cart.chrBanks Cart.chrIsRam at *
  rw [h1, h2, h3, h4, h5, h6]
  exact h

theorem Cart.MemoriesOk.writePrg {c : Cart} (h : c.MemoriesOk) (a : Addr) (b : Byte) : (c.writePrg a b).MemoriesOk := by
  unfold Cart.writePrg
  split
  · exact h.congr (by simp) (by simp) (by simp) (by simp) (by simp) (by simp)
  · split
    · have : a.toNat < 0x8000 := by omega
      exact ⟨h.1, Memory.wf_write (by omega) h.2.1, h.2.2.1, h.2.2.2⟩
    · exact h

theorem Cart.BanksOk.writePrg {c : Cart} (h : c.BanksOk) (a : Addr) (b : Byte) : (c.writePrg a b).BanksOk := by
  unfold Cart.writePrg
  split
  · exact h.mapperWrite a b
  · split
    · exact h.congr rfl rfl rfl rfl
    · exact h

theorem Cart.MemoriesOk.writeChr {c : Cart} (h : c.MemoriesOk) (hb : c.BanksOk) (a : PpuAddr) (b : Byte) :
    (c.writeChr a b).MemoriesOk := by
  unfold Cart.writeChr
  split
  · exact ⟨h.1, h.2.1, Memory.wf_write (Cart.chrLocation_lt hb a) h.2.2.1, h.2.2.2⟩
  · exact h

theorem Cart.BanksOk.writeChr {c : Cart} (h : c.BanksOk) (a : PpuAddr) (b : Byte) : (c.writeChr a b).BanksOk := by
  unfold Cart.writeChr
  split
  · exact h.congr rfl rfl rfl rfl
  · exact h

/-- A CHR access changes the mapper's registers alone, and only of an MMC3. -/
theorem Cart.observeA12_eq (fire : Config.Mmc3IrqFire) (a : PpuAddr) (c : Cart) :
    ∃ m, (c.observeA12 fire a).1 = { c with mapper := m } ∧ m.kind = c.mapper.kind := by
  unfold Cart.observeA12
  split
  · rename_i r hr
    exact ⟨_, rfl, by rw [hr]; rfl⟩
  · exact ⟨c.mapper, rfl, rfl⟩

end Sys2Proof.Machine
end

