-- ==== Sys2Proof/Laws/Frames.lean ====
section
/-! SUPPORT. Which bytes a read and a write of the CPU bus leave readable as before. -/

namespace Sys2Proof.Machine

/-- What a CPU read of a PPU register depends on. -/
theorem State.peekPpuRegister_congr {s t : State} {r : BitVec 3} (hstatus : r = 2#3 → t.ppu.status = s.ppu.status)
    (hoam : r = 4#3 → t.ppu.oam = s.ppu.oam ∧ t.ppu.oamAddr = s.ppu.oamAddr)
    (hdata : r = 7#3 → t.ppu.v = s.ppu.v ∧ t.ppu.readBuffer = s.ppu.readBuffer ∧ t.ppu.palette = s.ppu.palette) :
    t.peekPpuRegister r = s.peekPpuRegister r := by
  unfold State.peekPpuRegister
  split
  · rw [hstatus (BitVec.eq_of_toNat_eq ‹_›)]
  · obtain ⟨h1, h2⟩ := hoam (BitVec.eq_of_toNat_eq ‹_›)
    rw [h1, h2]
  · obtain ⟨h1, h2, h3⟩ := hdata (BitVec.eq_of_toNat_eq ‹_›)
    have haddr : t.ppu.dataAddress = s.ppu.dataAddress := by unfold Ppu.dataAddress; rw [h1]
    rw [haddr, h2]
    split
    · rfl
    · unfold State.peekPpu
      rw [if_neg (by omega), if_neg (by omega), if_neg (by omega), if_neg (by omega), h3]
  · rfl

/-- A read of `w` leaves every byte readable as before but those `readChanges` names (20_memory.md R50). -/
theorem State.peek_touch {w b : Addr} (s : State) (h : readChanges w b = false) : (s.touch w).peek b = s.peek b := by
  unfold readChanges at h
  unfold State.touch
  split at h
  · rename_i r hr
    simp only [hr]
    unfold State.touchPpuRegister
    split
    · have hr2 : r = 2#3 := BitVec.eq_of_toNat_eq ‹_›
      subst hr2
      refine State.peek_congr rfl (fun r' hr' => ?_) (fun _ => rfl) (fun _ => ⟨rfl, rfl, rfl⟩)
        (fun _ => ⟨rfl, rfl, rfl⟩) (fun _ => rfl)
      exact State.peekPpuRegister_congr (fun h2 => by simp [hr', h2] at h) (fun _ => ⟨rfl, rfl⟩)
        (fun _ => ⟨rfl, rfl, rfl⟩)
    · have hr7 : r = 7#3 := BitVec.eq_of_toNat_eq ‹_›
      subst hr7
      refine State.peek_congr rfl (fun r' hr' => ?_) (fun _ => rfl) (fun _ => ⟨rfl, rfl, rfl⟩)
        (fun _ => ⟨rfl, rfl, rfl⟩) (fun _ => ?_)
      · exact State.peekPpuRegister_congr (fun _ => rfl) (fun _ => ⟨rfl, rfl⟩) (fun h7 => by simp [hr', h7] at h)
      · exact Cart.readPrg_congr (by simp [State.touchData]) (by simp [State.touchData]) (by simp [State.touchData]) b
    · rfl
  · rename_i hr
    simp only [hr]
    refine State.peek_congr rfl (fun _ _ => rfl) (fun hb => ?_) (fun _ => ⟨rfl, rfl, rfl⟩)
      (fun _ => ⟨rfl, rfl, rfl⟩) (fun _ => rfl)
    simp [region_eq_apuStatus.mp hb] at h
  · rename_i hr
    simp only [hr]
    refine State.peek_congr rfl (fun _ _ => rfl) (fun _ => rfl) (fun hb => ?_)
      (fun _ => ⟨rfl, rfl, rfl⟩) (fun _ => rfl)
    simp [region_eq_port1.mp hb] at h
  · rename_i hr
    simp only [hr]
    refine State.peek_congr rfl (fun _ _ => rfl) (fun _ => rfl) (fun _ => ⟨rfl, rfl, rfl⟩) (fun hb => ?_)
      (fun _ => rfl)
    simp [region_eq_port2.mp hb] at h
  all_goals simp_all

/-! ## The PRG side under bus accesses -/

/-- Two cartridges with the same PRG memories and slots. -/
def Cart.SamePrg (c c' : Cart) : Prop := c'.prgRom = c.prgRom ∧ c'.prgRam = c.prgRam ∧ c'.prgSlot = c.prgSlot

theorem Cart.SamePrg.refl (c : Cart) : c.SamePrg c := ⟨rfl, rfl, rfl⟩

theorem Cart.SamePrg.trans {c c' c'' : Cart} (h : c.SamePrg c') (h' : c'.SamePrg c'') : c.SamePrg c'' :=
  ⟨h'.1.trans h.1, h'.2.1.trans h.2.1, h'.2.2.trans h.2.2⟩

theorem State.touchPpu_samePrg (a : PpuAddr) (s : State) : s.cart.SamePrg (s.touchPpu a).cart :=
  ⟨State.observe_prgRom s a, State.observe_prgRam s a, State.observe_prgSlot s a⟩

theorem State.touch_samePrg (a : Addr) (s : State) : s.cart.SamePrg (s.touch a).cart := by
  unfold State.touch
  split
  · unfold State.touchPpuRegister
    split
    · exact .refl _
    · exact State.touchPpu_samePrg _ s
    · exact .refl _
  all_goals exact .refl _

theorem State.writePpu_samePrg (a : PpuAddr) (b : Byte) (s : State) : s.cart.SamePrg (s.writePpu a b).cart := by
  unfold State.writePpu
  split
  · refine (State.touchPpu_samePrg a s).trans ?_
    dsimp only
    unfold Cart.writeChr
    split <;> exact .refl _
  · split
    · dsimp only
      split <;> exact .refl _
    · exact .refl _

theorem State.writePpuRegister_samePrg (r : BitVec 3) (b : Byte) (s : State) :
    s.cart.SamePrg (s.writePpuRegister r b).cart := by
  unfold State.writePpuRegister
  split
  case h_7 => exact State.writePpu_samePrg _ b s
  all_goals exact .refl _

theorem oamDmaCopy_samePrg (page : Byte) (k : Nat) (s : State) : s.cart.SamePrg (oamDmaCopy page k s).cart := by
  induction k generalizing s with
  | zero => exact .refl _
  | succ k ih =>
    simp only [oamDmaCopy, State.memRead]
    exact (State.touch_samePrg _ s).trans (ih _)

/-- A read of an address that names no device register depends on RAM and the PRG side alone. -/
theorem State.peek_congr_plain {s t : State} {b : Addr} (hb : isDevice b = false) (hram : t.ram = s.ram)
    (hprg : s.cart.SamePrg t.cart) : t.peek b = s.peek b := by
  unfold isDevice at hb
  refine State.peek_congr hram (fun r hr => ?_) (fun hr => ?_) (fun hr => ?_) (fun hr => ?_) (fun _ => ?_)
  · simp [hr] at hb
  · simp [hr] at hb
  · simp [hr] at hb
  · simp [hr] at hb
  · exact Cart.readPrg_congr hprg.1 hprg.2.1 hprg.2.2 b

@[simp] theorem State.writePpu_apu (a : PpuAddr) (b : Byte) (s : State) : (s.writePpu a b).apu = s.apu := by
  unfold State.writePpu
  split
  · rfl
  · split
    · dsimp only
      split <;> rfl
    · rfl

@[simp] theorem State.writePpu_ports (a : PpuAddr) (b : Byte) (s : State) : (s.writePpu a b).ports = s.ports := by
  unfold State.writePpu
  split
  · rfl
  · split
    · dsimp only
      split <;> rfl
    · rfl

@[simp] theorem State.writePpuRegister_apu (r : BitVec 3) (b : Byte) (s : State) :
    (s.writePpuRegister r b).apu = s.apu := by
  unfold State.writePpuRegister
  split <;> simp [State.writeData]

@[simp] theorem State.writePpuRegister_ports (r : BitVec 3) (b : Byte) (s : State) :
    (s.writePpuRegister r b).ports = s.ports := by
  unfold State.writePpuRegister
  split <;> simp [State.writeData]

/-- A write of `w` leaves every byte readable as before but those `writeChanges` names. -/
theorem State.peek_memWrite {w b : Addr} (v : Byte) (s : State) (h : writeChanges w b = false) :
    (s.memWrite w v).1.peek b = s.peek b := by
  unfold writeChanges at h
  unfold State.memWrite
  split at h
  · rename_i k hw
    simp only [hw]
    unfold State.peek
    split
    · rename_i k' hk'
      exact Memory.read_write_other fun hkk => by simp [hk', hkk] at h
    all_goals rfl
  · rename_i r hw
    simp only [hw]
    refine State.peek_congr (by simp) (fun r' hr' => ?_) (fun _ => by simp) (fun _ => by simp) (fun _ => by simp)
      (fun _ => ?_)
    · simp [hr'] at h
    · have := State.writePpuRegister_samePrg r v s
      exact Cart.readPrg_congr this.1 this.2.1 this.2.2 b
  · rename_i hw
    simp only [hw]
    refine State.peek_congr rfl (fun _ _ => rfl) (fun hb => ?_) (fun _ => ⟨rfl, rfl, rfl⟩) (fun _ => ⟨rfl, rfl, rfl⟩)
      (fun _ => rfl)
    simp [region_eq_apuStatus.mp hb] at h
  · rename_i hw
    simp only [hw]
    refine State.peek_congr rfl (fun _ _ => rfl) (fun hb => ?_) (fun _ => ⟨rfl, rfl, rfl⟩) (fun _ => ⟨rfl, rfl, rfl⟩)
      (fun _ => rfl)
    simp [region_eq_apuStatus.mp hb] at h
  · rename_i hw
    simp only [hw]
    exact State.peek_congr_plain h (by simp [State.oamDma]) (oamDmaCopy_samePrg v 256 s)
  · rename_i hw
    simp only [hw]
    refine State.peek_congr rfl (fun _ _ => rfl) (fun _ => rfl) (fun hb => ?_) (fun hb => ?_) (fun _ => rfl)
    · simp [region_eq_port1.mp hb] at h
    · simp [region_eq_port2.mp hb] at h
  · rename_i hw
    simp only [hw]
    refine State.peek_congr rfl (fun _ _ => rfl) (fun hb => ?_) (fun _ => ⟨rfl, rfl, rfl⟩) (fun _ => ⟨rfl, rfl, rfl⟩)
      (fun _ => rfl)
    simp [region_eq_apuStatus.mp hb] at h
  · rename_i hw
    simp only [hw]
  · rename_i hw
    simp only [hw]
    refine State.peek_congr rfl
      (fun _ _ => State.peekPpuRegister_congr (fun _ => rfl) (fun _ => ⟨rfl, rfl⟩) (fun _ => ⟨rfl, rfl, rfl⟩))
      (fun _ => rfl) (fun _ => ⟨rfl, rfl, rfl⟩) (fun _ => ⟨rfl, rfl, rfl⟩) (fun _ => ?_)
    dsimp only
    unfold Cart.writePrg
    split at h
    · rw [if_pos ‹_›]
      have hb : ¬0x8000 ≤ b.toNat := by simpa using h
      unfold Cart.readPrg
      rw [if_neg hb, if_neg hb]
      simp
    · rw [if_neg ‹_›]
      split at h
      · rw [if_pos ‹_›]
        unfold Cart.readPrg
        split
        · rfl
        · split
          · refine Memory.read_write_other fun hk => ?_
            have hbw : b = w := BitVec.eq_of_toNat_eq (by omega)
            simp [hbw] at h
          · rfl
      · rw [if_neg ‹_›]

/-! ## Stored bytes -/

/-- RAM through any of its four images (20_memory.md R46). -/
theorem State.peek_of_ram (s : State) {a : Addr} (h : a.toNat < 0x2000) : s.peek a = s.ram.read (a &&& 0x07FF#16).toNat := by
  unfold State.peek
  rw [region_eq_ram.mpr ⟨h, rfl⟩]

theorem State.memWrite_ram (s : State) {a : Addr} (v : Byte) (h : a.toNat < 0x2000) :
    s.memWrite a v = ({ s with ram := s.ram.write (a &&& 0x07FF#16).toNat v }, 0) := by
  unfold State.memWrite
  rw [region_eq_ram.mpr ⟨h, rfl⟩]

theorem State.touch_of_ram (s : State) {a : Addr} (h : a.toNat < 0x2000) : s.touch a = s := by
  unfold State.touch
  rw [region_eq_ram.mpr ⟨h, rfl⟩]

/-- A byte stored to RAM or PRG-RAM reads back. -/
theorem State.peek_memWrite_same (s : State) {a : Addr} (v : Byte)
    (h : a.toNat < 0x2000 ∨ (0x6000 ≤ a.toNat ∧ a.toNat < 0x8000)) : (s.memWrite a v).1.peek a = v := by
  rcases h with h | ⟨h1, h2⟩
  · rw [State.memWrite_ram s v h, State.peek_of_ram _ h]
    exact Memory.read_write_same
  · have hr : region a = .cartridge := region_eq_cartridge.mpr (by omega)
    unfold State.memWrite State.peek
    rw [hr]
    dsimp only
    unfold Cart.writePrg Cart.readPrg
    rw [if_neg (by omega), if_pos h1, if_neg (by omega), if_pos h1]
    exact Memory.read_write_same

end Sys2Proof.Machine
end

