-- ==== Sys2Proof/Laws/Keeps.lean ====
section
/-! SUPPORT. Preservation packaged once: a property of the machine outside the CPU that every bus access keeps is kept by
every operation, every instruction, every service; one that the devices' clocks keep too is kept by every step. -/

namespace Sys2Proof.Machine

theorem SameOutside.refl (s : State) : SameOutside s s := ⟨rfl, rfl, rfl, rfl, rfl, rfl, rfl, rfl⟩

theorem SameOutside.trans {s t u : State} (h : SameOutside s t) (h' : SameOutside t u) : SameOutside s u := by
  obtain ⟨h1, h2, h3, h4, h5, h6, h7, h8⟩ := h
  obtain ⟨g1, g2, g3, g4, g5, g6, g7, g8⟩ := h'
  exact ⟨g1.trans h1, g2.trans h2, g3.trans h3, g4.trans h4, g5.trans h5, g6.trans h6, g7.trans h7, g8.trans h8⟩

/-- `Q` says something about the machine outside the CPU that no bus access breaks. -/
structure BusKeeps (Q : State → Prop) : Prop where
  cpu : ∀ {s t : State}, SameOutside s t → Q s → Q t
  touch : ∀ (a : Addr) {s : State}, Q s → Q (s.touch a)
  write : ∀ (a : Addr) (b : Byte) {s : State}, Q s → Q (s.memWrite a b).1

namespace BusKeeps

variable {Q : State → Prop} (hk : BusKeeps Q)
include hk

theorem same {s t : State} (h : Q s) (e : SameOutside s t) : Q t := hk.cpu e h

theorem charge (n : Nat) {s : State} (h : Q s) : Q (s.charge n) := hk.same h ⟨rfl, rfl, rfl, rfl, rfl, rfl, rfl, rfl⟩

theorem store (a : Addr) (b : Byte) {s : State} (h : Q s) : Q (s.store a b) := hk.charge _ (hk.write a b h)

theorem fetch8 {s : State} (h : Q s) : Q s.fetch8.2 := hk.same (hk.touch s.pc h) ⟨rfl, rfl, rfl, rfl, rfl, rfl, rfl, rfl⟩

theorem push (v : Byte) {s : State} (h : Q s) : Q (s.push v) := hk.same (hk.store _ v h) ⟨rfl, rfl, rfl, rfl, rfl, rfl, rfl, rfl⟩

theorem pull {s : State} (h : Q s) : Q s.pull.2 :=
  hk.touch _ (hk.same (t := { s with sp := s.sp + 1#8 }) h ⟨rfl, rfl, rfl, rfl, rfl, rfl, rfl, rfl⟩)

theorem pushAddr (v : Addr) {s : State} (h : Q s) : Q (s.pushAddr v) := hk.push _ (hk.push _ h)

theorem pullAddr {s : State} (h : Q s) : Q s.pullAddr.2 := hk.pull (hk.pull h)

theorem read16 (a : Addr) {s : State} (h : Q s) : Q (s.read16 a).2 := hk.touch _ (hk.touch _ h)

theorem jumpThrough (a : Addr) {s : State} (h : Q s) : Q (s.jumpThrough a) := hk.same (hk.read16 a h) ⟨rfl, rfl, rfl, rfl, rfl, rfl, rfl, rfl⟩

theorem enter (vector ret : Addr) (pushed : Byte) {s : State} (h : Q s) : Q (s.enter vector ret pushed) := by
  refine hk.jumpThrough vector (hk.same (s := (s.pushAddr ret).push pushed) ?_ ⟨rfl, rfl, rfl, rfl, rfl, rfl, rfl, rfl⟩)
  exact hk.push _ (hk.pushAddr _ h)

theorem leave {s : State} (h : Q s) : Q s.leave := by
  refine hk.same (s := (State.pullAddr { s.pull.2 with p := pulledFlags s.pull.1 }).2) ?_
    ⟨rfl, rfl, rfl, rfl, rfl, rfl, rfl, rfl⟩
  exact hk.pullAddr (hk.same (hk.pull h) ⟨rfl, rfl, rfl, rfl, rfl, rfl, rfl, rfl⟩)

theorem readOperand (o : Source) (base : Nat) {s : State} (h : Q s) : Q (s.readOperand o base).2 := by
  cases o with
  | imm d => exact hk.charge _ h
  | mem o => exact hk.touch _ (hk.charge _ h)

theorem writeOperand (o : MemOperand) (base : Nat) (v : Byte) {s : State} (h : Q s) : Q (s.writeOperand o base v) :=
  hk.store _ v (hk.charge _ h)

theorem modifyOperand (o : MemOperand) (base : Nat) (f : Byte → Byte) {s : State} (h : Q s) :
    Q (s.modifyOperand o base f).2 := hk.store _ _ (hk.touch _ (hk.charge _ h))

theorem readIndirect (a : Addr) {s : State} (h : Q s) : Q (s.readIndirect a).2 := hk.touch _ (hk.touch _ h)

theorem adc (m : Byte) {s : State} (h : Q s) : Q (s.adc m) := hk.same h ⟨rfl, rfl, rfl, rfl, rfl, rfl, rfl, rfl⟩
theorem sbc (m : Byte) {s : State} (h : Q s) : Q (s.sbc m) := hk.same h ⟨rfl, rfl, rfl, rfl, rfl, rfl, rfl, rfl⟩
theorem loadA (o : Source) (base : Nat) {s : State} (h : Q s) : Q (s.loadA o base) :=
  hk.same (hk.readOperand o base h) ⟨rfl, rfl, rfl, rfl, rfl, rfl, rfl, rfl⟩
theorem loadX (o : Source) (base : Nat) {s : State} (h : Q s) : Q (s.loadX o base) :=
  hk.same (hk.readOperand o base h) ⟨rfl, rfl, rfl, rfl, rfl, rfl, rfl, rfl⟩
theorem loadY (o : Source) (base : Nat) {s : State} (h : Q s) : Q (s.loadY o base) :=
  hk.same (hk.readOperand o base h) ⟨rfl, rfl, rfl, rfl, rfl, rfl, rfl, rfl⟩
theorem loadAX (o : MemOperand) (base : Nat) {s : State} (h : Q s) : Q (s.loadAX o base) :=
  hk.same (hk.readOperand (.mem o) base h) ⟨rfl, rfl, rfl, rfl, rfl, rfl, rfl, rfl⟩
theorem adcOperand (o : Source) (base : Nat) {s : State} (h : Q s) : Q (s.adcOperand o base) :=
  hk.adc _ (hk.readOperand o base h)
theorem sbcOperand (o : Source) (base : Nat) {s : State} (h : Q s) : Q (s.sbcOperand o base) :=
  hk.sbc _ (hk.readOperand o base h)
theorem compareOperand (r : Byte) (o : Source) (base : Nat) {s : State} (h : Q s) : Q (s.compareOperand r o base) :=
  hk.same (hk.readOperand o base h) ⟨rfl, rfl, rfl, rfl, rfl, rfl, rfl, rfl⟩
theorem logicOperand (op : Byte → Byte → Byte) (o : Source) (base : Nat) {s : State} (h : Q s) :
    Q (s.logicOperand op o base) := hk.same (hk.readOperand o base h) ⟨rfl, rfl, rfl, rfl, rfl, rfl, rfl, rfl⟩
theorem bitOperand (o : Source) (base : Nat) {s : State} (h : Q s) : Q (s.bitOperand o base) :=
  hk.same (hk.readOperand o base h) ⟨rfl, rfl, rfl, rfl, rfl, rfl, rfl, rfl⟩
theorem readAndDiscard (o : MemOperand) (base : Nat) {s : State} (h : Q s) : Q (s.readAndDiscard o base) :=
  hk.readOperand _ base h
theorem bumpOperand (delta : Byte) (o : MemOperand) (base : Nat) {s : State} (h : Q s) :
    Q (s.bumpOperand delta o base) := hk.same (hk.modifyOperand o base (fun m => m + delta) h) ⟨rfl, rfl, rfl, rfl, rfl, rfl, rfl, rfl⟩
theorem shiftAcc (f : Shift) (base : Nat) {s : State} (h : Q s) : Q (s.shiftAcc f base) := hk.same h ⟨rfl, rfl, rfl, rfl, rfl, rfl, rfl, rfl⟩
theorem shiftOperand (f : Shift) (o : MemOperand) (base : Nat) {s : State} (h : Q s) : Q (s.shiftOperand f o base) :=
  hk.same (hk.modifyOperand o base (fun m => (f m (flagC s.p)).1) h) ⟨rfl, rfl, rfl, rfl, rfl, rfl, rfl, rfl⟩
theorem shiftThenLogic (f : Shift) (op : Byte → Byte → Byte) (o : MemOperand) (base : Nat) {s : State} (h : Q s) :
    Q (s.shiftThenLogic f op o base) := hk.same (hk.modifyOperand o base (fun m => (f m (flagC s.p)).1) h) ⟨rfl, rfl, rfl, rfl, rfl, rfl, rfl, rfl⟩
theorem rotateThenAdc (o : MemOperand) (base : Nat) {s : State} (h : Q s) : Q (s.rotateThenAdc o base) :=
  hk.adc _ (hk.same (hk.modifyOperand o base (fun m => (shiftRor m (flagC s.p)).1) h) ⟨rfl, rfl, rfl, rfl, rfl, rfl, rfl, rfl⟩)
theorem decrementThenCompare (o : MemOperand) (base : Nat) {s : State} (h : Q s) :
    Q (s.decrementThenCompare o base) := hk.same (hk.modifyOperand o base (fun m => m - 1#8) h) ⟨rfl, rfl, rfl, rfl, rfl, rfl, rfl, rfl⟩
theorem incrementThenSbc (o : MemOperand) (base : Nat) {s : State} (h : Q s) : Q (s.incrementThenSbc o base) :=
  hk.sbc _ (hk.modifyOperand o base (fun m => m + 1#8) h)
theorem branch (cond : Bool) (d : Byte) {s : State} (h : Q s) : Q (s.branch cond d) := by
  unfold State.branch
  split
  · exact hk.same h ⟨rfl, rfl, rfl, rfl, rfl, rfl, rfl, rfl⟩
  · exact hk.charge _ h

end BusKeeps

/-- `Q` holds of the state an outcome goes on with, if it goes on. -/
def HoldsNext (Q : State → Prop) : Result → Prop
  | .next t => Q t
  | .fault _ => True
  | .refused _ => True

theorem HoldsNext.of_eq {Q : State → Prop} {r : Result} {t : State} (h : HoldsNext Q r) (hr : r = .next t) : Q t := by
  subst hr
  exact h

/-- Every instruction keeps what every bus access keeps. -/
theorem BusKeeps.exec {Q : State → Prop} (hk : BusKeeps Q) (i : Instr) {s : State} (h : Q s) :
    HoldsNext Q (exec i s) :=
  match i with
  | .brk => hk.enter _ _ _ (hk.charge _ h)
  | .oraIzx _ => hk.logicOperand _ _ _ h
  | .sloIzx _ => hk.shiftThenLogic _ _ _ _ h
  | .dopZp04 _ => hk.readAndDiscard _ _ h
  | .oraZp _ => hk.logicOperand _ _ _ h
  | .aslZp _ => hk.shiftOperand _ _ _ h
  | .sloZp _ => hk.shiftThenLogic _ _ _ _ h
  | .php => hk.push _ (hk.charge _ h)
  | .oraImm _ => hk.logicOperand _ _ _ h
  | .aslAcc => hk.shiftAcc _ _ h
  | .topAbs _ => hk.readAndDiscard _ _ h
  | .oraAbs _ => hk.logicOperand _ _ _ h
  | .aslAbs _ => hk.shiftOperand _ _ _ h
  | .sloAbs _ => hk.shiftThenLogic _ _ _ _ h
  | .bpl _ => hk.branch _ _ h
  | .oraIzy _ => hk.logicOperand _ _ _ h
  | .sloIzy _ => hk.shiftThenLogic _ _ _ _ h
  | .dopZpx14 _ => hk.readAndDiscard _ _ h
  | .oraZpx _ => hk.logicOperand _ _ _ h
  | .aslZpx _ => hk.shiftOperand _ _ _ h
  | .sloZpx _ => hk.shiftThenLogic _ _ _ _ h
  | .clc => hk.same h ⟨rfl, rfl, rfl, rfl, rfl, rfl, rfl, rfl⟩
  | .oraAby _ => hk.logicOperand _ _ _ h
  | .nop1A => hk.charge _ h
  | .sloAby _ => hk.shiftThenLogic _ _ _ _ h
  | .topAbx1C _ => hk.readAndDiscard _ _ h
  | .oraAbx _ => hk.logicOperand _ _ _ h
  | .aslAbx _ => hk.shiftOperand _ _ _ h
  | .sloAbx _ => hk.shiftThenLogic _ _ _ _ h
  | .jsr _ => hk.same (hk.pushAddr _ (hk.charge _ h)) ⟨rfl, rfl, rfl, rfl, rfl, rfl, rfl, rfl⟩
  | .andIzx _ => hk.logicOperand _ _ _ h
  | .rlaIzx _ => hk.shiftThenLogic _ _ _ _ h
  | .bitZp _ => hk.bitOperand _ _ h
  | .andZp _ => hk.logicOperand _ _ _ h
  | .rolZp _ => hk.shiftOperand _ _ _ h
  | .rlaZp _ => hk.shiftThenLogic _ _ _ _ h
  | .plp => hk.same (hk.pull (hk.charge _ h)) ⟨rfl, rfl, rfl, rfl, rfl, rfl, rfl, rfl⟩
  | .andImm _ => hk.logicOperand _ _ _ h
  | .rolAcc => hk.shiftAcc _ _ h
  | .bitAbs _ => hk.bitOperand _ _ h
  | .andAbs _ => hk.logicOperand _ _ _ h
  | .rolAbs _ => hk.shiftOperand _ _ _ h
  | .rlaAbs _ => hk.shiftThenLogic _ _ _ _ h
  | .bmi _ => hk.branch _ _ h
  | .andIzy _ => hk.logicOperand _ _ _ h
  | .rlaIzy _ => hk.shiftThenLogic _ _ _ _ h
  | .dopZpx34 _ => hk.readAndDiscard _ _ h
  | .andZpx _ => hk.logicOperand _ _ _ h
  | .rolZpx _ => hk.shiftOperand _ _ _ h
  | .rlaZpx _ => hk.shiftThenLogic _ _ _ _ h
  | .sec => hk.same h ⟨rfl, rfl, rfl, rfl, rfl, rfl, rfl, rfl⟩
  | .andAby _ => hk.logicOperand _ _ _ h
  | .nop3A => hk.charge _ h
  | .rlaAby _ => hk.shiftThenLogic _ _ _ _ h
  | .topAbx3C _ => hk.readAndDiscard _ _ h
  | .andAbx _ => hk.logicOperand _ _ _ h
  | .rolAbx _ => hk.shiftOperand _ _ _ h
  | .rlaAbx _ => hk.shiftThenLogic _ _ _ _ h
  | .rti => hk.leave (hk.charge _ h)
  | .eorIzx _ => hk.logicOperand _ _ _ h
  | .sreIzx _ => hk.shiftThenLogic _ _ _ _ h
  | .dopZp44 _ => hk.readAndDiscard _ _ h
  | .eorZp _ => hk.logicOperand _ _ _ h
  | .lsrZp _ => hk.shiftOperand _ _ _ h
  | .sreZp _ => hk.shiftThenLogic _ _ _ _ h
  | .pha => hk.push _ (hk.charge _ h)
  | .eorImm _ => hk.logicOperand _ _ _ h
  | .lsrAcc => hk.shiftAcc _ _ h
  | .jmpAbs _ => hk.same h ⟨rfl, rfl, rfl, rfl, rfl, rfl, rfl, rfl⟩
  | .eorAbs _ => hk.logicOperand _ _ _ h
  | .lsrAbs _ => hk.shiftOperand _ _ _ h
  | .sreAbs _ => hk.shiftThenLogic _ _ _ _ h
  | .bvc _ => hk.branch _ _ h
  | .eorIzy _ => hk.logicOperand _ _ _ h
  | .sreIzy _ => hk.shiftThenLogic _ _ _ _ h
  | .dopZpx54 _ => hk.readAndDiscard _ _ h
  | .eorZpx _ => hk.logicOperand _ _ _ h
  | .lsrZpx _ => hk.shiftOperand _ _ _ h
  | .sreZpx _ => hk.shiftThenLogic _ _ _ _ h
  | .cli => hk.same h ⟨rfl, rfl, rfl, rfl, rfl, rfl, rfl, rfl⟩
  | .eorAby _ => hk.logicOperand _ _ _ h
  | .nop5A => hk.charge _ h
  | .sreAby _ => hk.shiftThenLogic _ _ _ _ h
  | .topAbx5C _ => hk.readAndDiscard _ _ h
  | .eorAbx _ => hk.logicOperand _ _ _ h
  | .lsrAbx _ => hk.shiftOperand _ _ _ h
  | .sreAbx _ => hk.shiftThenLogic _ _ _ _ h
  | .rts => hk.same (hk.pullAddr (hk.charge _ h)) ⟨rfl, rfl, rfl, rfl, rfl, rfl, rfl, rfl⟩
  | .adcIzx _ => hk.adcOperand _ _ h
  | .rraIzx _ => hk.rotateThenAdc _ _ h
  | .dopZp64 _ => hk.readAndDiscard _ _ h
  | .adcZp _ => hk.adcOperand _ _ h
  | .rorZp _ => hk.shiftOperand _ _ _ h
  | .rraZp _ => hk.rotateThenAdc _ _ h
  | .pla => hk.same (hk.pull (hk.charge _ h)) ⟨rfl, rfl, rfl, rfl, rfl, rfl, rfl, rfl⟩
  | .adcImm _ => hk.adcOperand _ _ h
  | .rorAcc => hk.shiftAcc _ _ h
  | .jmpInd _ => hk.same (hk.readIndirect _ (hk.charge _ h)) ⟨rfl, rfl, rfl, rfl, rfl, rfl, rfl, rfl⟩
  | .adcAbs _ => hk.adcOperand _ _ h
  | .rorAbs _ => hk.shiftOperand _ _ _ h
  | .rraAbs _ => hk.rotateThenAdc _ _ h
  | .bvs _ => hk.branch _ _ h
  | .adcIzy _ => hk.adcOperand _ _ h
  | .rraIzy _ => hk.rotateThenAdc _ _ h
  | .dopZpx74 _ => hk.readAndDiscard _ _ h
  | .adcZpx _ => hk.adcOperand _ _ h
  | .rorZpx _ => hk.shiftOperand _ _ _ h
  | .rraZpx _ => hk.rotateThenAdc _ _ h
  | .sei => hk.same h ⟨rfl, rfl, rfl, rfl, rfl, rfl, rfl, rfl⟩
  | .adcAby _ => hk.adcOperand _ _ h
  | .nop7A => hk.charge _ h
  | .rraAby _ => hk.rotateThenAdc _ _ h
  | .topAbx7C _ => hk.readAndDiscard _ _ h
  | .adcAbx _ => hk.adcOperand _ _ h
  | .rorAbx _ => hk.shiftOperand _ _ _ h
  | .rraAbx _ => hk.rotateThenAdc _ _ h
  | .dopImm80 _ => hk.charge _ h
  | .staIzx _ => hk.writeOperand _ _ _ h
  | .dopImm82 _ => hk.charge _ h
  | .aaxIzx _ => hk.writeOperand _ _ _ h
  | .styZp _ => hk.writeOperand _ _ _ h
  | .staZp _ => hk.writeOperand _ _ _ h
  | .stxZp _ => hk.writeOperand _ _ _ h
  | .aaxZp _ => hk.writeOperand _ _ _ h
  | .dey => hk.same h ⟨rfl, rfl, rfl, rfl, rfl, rfl, rfl, rfl⟩
  | .dopImm89 _ => hk.charge _ h
  | .txa => hk.same h ⟨rfl, rfl, rfl, rfl, rfl, rfl, rfl, rfl⟩
  | .styAbs _ => hk.writeOperand _ _ _ h
  | .staAbs _ => hk.writeOperand _ _ _ h
  | .stxAbs _ => hk.writeOperand _ _ _ h
  | .aaxAbs _ => hk.writeOperand _ _ _ h
  | .bcc _ => hk.branch _ _ h
  | .staIzy _ => hk.writeOperand _ _ _ h
  | .styZpx _ => hk.writeOperand _ _ _ h
  | .staZpx _ => hk.writeOperand _ _ _ h
  | .stxZpy _ => hk.writeOperand _ _ _ h
  | .aaxZpy _ => hk.writeOperand _ _ _ h
  | .tya => hk.same h ⟨rfl, rfl, rfl, rfl, rfl, rfl, rfl, rfl⟩
  | .staAby _ => hk.writeOperand _ _ _ h
  | .txs => hk.same h ⟨rfl, rfl, rfl, rfl, rfl, rfl, rfl, rfl⟩
  | .staAbx _ => hk.writeOperand _ _ _ h
  | .ldyImm _ => hk.loadY _ _ h
  | .ldaIzx _ => hk.loadA _ _ h
  | .ldxImm _ => hk.loadX _ _ h
  | .laxIzx _ => hk.loadAX _ _ h
  | .ldyZp _ => hk.loadY _ _ h
  | .ldaZp _ => hk.loadA _ _ h
  | .ldxZp _ => hk.loadX _ _ h
  | .laxZp _ => hk.loadAX _ _ h
  | .tay => hk.same h ⟨rfl, rfl, rfl, rfl, rfl, rfl, rfl, rfl⟩
  | .ldaImm _ => hk.loadA _ _ h
  | .tax => hk.same h ⟨rfl, rfl, rfl, rfl, rfl, rfl, rfl, rfl⟩
  | .ldyAbs _ => hk.loadY _ _ h
  | .ldaAbs _ => hk.loadA _ _ h
  | .ldxAbs _ => hk.loadX _ _ h
  | .laxAbs _ => hk.loadAX _ _ h
  | .bcs _ => hk.branch _ _ h
  | .ldaIzy _ => hk.loadA _ _ h
  | .laxIzy _ => hk.loadAX _ _ h
  | .ldyZpx _ => hk.loadY _ _ h
  | .ldaZpx _ => hk.loadA _ _ h
  | .ldxZpy _ => hk.loadX _ _ h
  | .laxZpy _ => hk.loadAX _ _ h
  | .clv => hk.same h ⟨rfl, rfl, rfl, rfl, rfl, rfl, rfl, rfl⟩
  | .ldaAby _ => hk.loadA _ _ h
  | .tsx => hk.same h ⟨rfl, rfl, rfl, rfl, rfl, rfl, rfl, rfl⟩
  | .ldyAbx _ => hk.loadY _ _ h
  | .ldaAbx _ => hk.loadA _ _ h
  | .ldxAby _ => hk.loadX _ _ h
  | .laxAby _ => hk.loadAX _ _ h
  | .cpyImm _ => hk.compareOperand _ _ _ h
  | .cmpIzx _ => hk.compareOperand _ _ _ h
  | .dopImmC2 _ => hk.charge _ h
  | .dcpIzx _ => hk.decrementThenCompare _ _ h
  | .cpyZp _ => hk.compareOperand _ _ _ h
  | .cmpZp _ => hk.compareOperand _ _ _ h
  | .decZp _ => hk.bumpOperand _ _ _ h
  | .dcpZp _ => hk.decrementThenCompare _ _ h
  | .iny => hk.same h ⟨rfl, rfl, rfl, rfl, rfl, rfl, rfl, rfl⟩
  | .cmpImm _ => hk.compareOperand _ _ _ h
  | .dex => hk.same h ⟨rfl, rfl, rfl, rfl, rfl, rfl, rfl, rfl⟩
  | .cpyAbs _ => hk.compareOperand _ _ _ h
  | .cmpAbs _ => hk.compareOperand _ _ _ h
  | .decAbs _ => hk.bumpOperand _ _ _ h
  | .dcpAbs _ => hk.decrementThenCompare _ _ h
  | .bne _ => hk.branch _ _ h
  | .cmpIzy _ => hk.compareOperand _ _ _ h
  | .dcpIzy _ => hk.decrementThenCompare _ _ h
  | .dopZpxD4 _ => hk.readAndDiscard _ _ h
  | .cmpZpx _ => hk.compareOperand _ _ _ h
  | .decZpx _ => hk.bumpOperand _ _ _ h
  | .dcpZpx _ => hk.decrementThenCompare _ _ h
  | .cld => hk.same h ⟨rfl, rfl, rfl, rfl, rfl, rfl, rfl, rfl⟩
  | .cmpAby _ => hk.compareOperand _ _ _ h
  | .nopDA => hk.charge _ h
  | .dcpAby _ => hk.decrementThenCompare _ _ h
  | .topAbxDC _ => hk.readAndDiscard _ _ h
  | .cmpAbx _ => hk.compareOperand _ _ _ h
  | .decAbx _ => hk.bumpOperand _ _ _ h
  | .dcpAbx _ => hk.decrementThenCompare _ _ h
  | .cpxImm _ => hk.compareOperand _ _ _ h
  | .sbcIzx _ => hk.sbcOperand _ _ h
  | .dopImmE2 _ => hk.charge _ h
  | .iscIzx _ => hk.incrementThenSbc _ _ h
  | .cpxZp _ => hk.compareOperand _ _ _ h
  | .sbcZp _ => hk.sbcOperand _ _ h
  | .incZp _ => hk.bumpOperand _ _ _ h
  | .iscZp _ => hk.incrementThenSbc _ _ h
  | .inx => hk.same h ⟨rfl, rfl, rfl, rfl, rfl, rfl, rfl, rfl⟩
  | .sbcImm _ => hk.sbcOperand _ _ h
  | .nop => hk.charge _ h
  | .sbcImmEB _ => hk.sbcOperand _ _ h
  | .cpxAbs _ => hk.compareOperand _ _ _ h
  | .sbcAbs _ => hk.sbcOperand _ _ h
  | .incAbs _ => hk.bumpOperand _ _ _ h
  | .iscAbs _ => hk.incrementThenSbc _ _ h
  | .beq _ => hk.branch _ _ h
  | .sbcIzy _ => hk.sbcOperand _ _ h
  | .iscIzy _ => hk.incrementThenSbc _ _ h
  | .dopZpxF4 _ => hk.readAndDiscard _ _ h
  | .sbcZpx _ => hk.sbcOperand _ _ h
  | .incZpx _ => hk.bumpOperand _ _ _ h
  | .iscZpx _ => hk.incrementThenSbc _ _ h
  | .sed => hk.same h ⟨rfl, rfl, rfl, rfl, rfl, rfl, rfl, rfl⟩
  | .sbcAby _ => hk.sbcOperand _ _ h
  | .nopFA => hk.charge _ h
  | .iscAby _ => hk.incrementThenSbc _ _ h
  | .topAbxFC _ => hk.readAndDiscard _ _ h
  | .sbcAbx _ => hk.sbcOperand _ _ h
  | .incAbx _ => hk.bumpOperand _ _ _ h
  | .iscAbx _ => hk.incrementThenSbc _ _ h
  | .unassigned _ => trivial

theorem BusKeeps.fetchInstr {Q : State → Prop} (hk : BusKeeps Q) {s : State} (h : Q s) : Q s.fetchInstr.2 := by
  unfold State.fetchInstr
  dsimp only
  split
  · exact hk.fetch8 h
  · exact hk.fetch8 (hk.fetch8 h)
  · exact hk.fetch8 (hk.fetch8 (hk.fetch8 h))

theorem BusKeeps.runInstruction {Q : State → Prop} (hk : BusKeeps Q) {s : State} (h : Q s) :
    HoldsNext Q s.runInstruction := hk.exec _ (hk.fetchInstr h)

/-- `Q` is kept by every bus access, by a change of the pending slot, and by the clocks of the devices. -/
structure StepKeeps (Q : State → Prop) : Prop extends BusKeeps Q where
  pending : ∀ (k : Option Interrupt) {s : State}, Q s → Q { s with pending := k }
  apu : ∀ {s : State}, Q s → Q s.apuCycle
  ppu : ∀ {s : State}, Q s → Q s.ppuTick

namespace StepKeeps

variable {Q : State → Prop} (hk : StepKeeps Q)
include hk

theorem service (k : Interrupt) {s : State} (h : Q s) : Q (s.service k) := by
  unfold State.service
  have h' := hk.pending none h
  cases k with
  | irq =>
    exact hk.same (hk.enter Config.vectorIrq s.pc (pushedByService s.p) h')
      ⟨rfl, rfl, rfl, rfl, rfl, rfl, rfl, rfl⟩
  | nmi =>
    exact hk.same (hk.enter Config.vectorNmi s.pc (pushedByService s.p) h')
      ⟨rfl, rfl, rfl, rfl, rfl, rfl, rfl, rfl⟩
  | reset =>
    refine hk.same (hk.jumpThrough Config.vectorReset (s := { s with
      pending := none, a := s.params.resetA, x := s.params.resetX, y := s.params.resetY, sp := s.params.resetS,
      p := s.params.resetP }) ?_) ⟨rfl, rfl, rfl, rfl, rfl, rfl, rfl, rfl⟩
    exact hk.same h' ⟨rfl, rfl, rfl, rfl, rfl, rfl, rfl, rfl⟩

theorem executeOp {s : State} (h : Q s) : HoldsNext Q s.executeOp := by
  have h0 : Q { s with cyc := 0 } := hk.same h ⟨rfl, rfl, rfl, rfl, rfl, rfl, rfl, rfl⟩
  unfold State.executeOp
  dsimp only
  split
  · exact hk.service _ h0
  · exact hk.runInstruction (hk.pending _ h0)

theorem apuStep (n : Nat) {s : State} (h : Q s) : Q (s.apuStep n) := by
  induction n generalizing s with
  | zero => exact h
  | succ n ih => exact ih (hk.apu h)

theorem ppuStep (n : Nat) {s : State} (h : Q s) : Q (s.ppuStep n) := by
  induction n generalizing s with
  | zero => exact h
  | succ n ih => exact ih (hk.ppu h)

/-- A step keeps what the bus accesses, the pending slot and the devices' clocks keep. -/
theorem step {s t : State} (h : Q s) (ht : step s = .next t) : Q t := by
  have hx := hk.executeOp h
  unfold Machine.step State.round at ht
  split at ht
  · rename_i u hu
    cases ht
    exact hk.ppuStep _ (hk.apuStep _ (hx.of_eq hu))
  · cases ht
  · cases ht

end StepKeeps

end Sys2Proof.Machine
end

