-- ==== Sys2Proof/Laws/Operands.lean ====
section
/-! SUPPORT. What reading, writing and modifying an operand does, and what a push and a pull do, said once: the value, the
registers, the cycles, and the machine outside the CPU. -/

namespace Sys2Proof.Machine

/-! ## Bus accesses do not see the cycle counter -/

theorem State.touch_charge (a : Addr) (n : Nat) (s : State) : (s.charge n).touch a = (s.touch a).charge n := by
  unfold State.touch
  split
  · unfold State.touchPpuRegister
    split <;> rfl
  all_goals rfl

theorem State.writePpu_charge (a : PpuAddr) (b : Byte) (n : Nat) (s : State) :
    (s.charge n).writePpu a b = (s.writePpu a b).charge n := by
  unfold State.writePpu
  split
  · rfl
  · split
    · dsimp only [State.charge]
      split <;> rfl
    · rfl

theorem State.writePpuRegister_charge (r : BitVec 3) (b : Byte) (n : Nat) (s : State) :
    (s.charge n).writePpuRegister r b = (s.writePpuRegister r b).charge n := by
  unfold State.writePpuRegister
  split
  case h_7 =>
    unfold State.writeData
    dsimp only
    rw [State.charge_ppu, State.writePpu_charge]
    rfl
  all_goals rfl

theorem oamDmaCopy_charge (page : Byte) (k n : Nat) (s : State) :
    oamDmaCopy page k (s.charge n) = (oamDmaCopy page k s).charge n := by
  induction k generalizing s with
  | zero => rfl
  | succ k ih =>
    simp only [oamDmaCopy, State.memRead]
    rw [State.touch_charge, ← ih]
    rfl

theorem State.memWrite_charge (a : Addr) (b : Byte) (n : Nat) (s : State) :
    (s.charge n).memWrite a b = ((s.memWrite a b).1.charge n, (s.memWrite a b).2) := by
  unfold State.memWrite
  split
  case h_2 => rw [State.writePpuRegister_charge]
  case h_4 =>
    unfold State.oamDma
    rw [oamDmaCopy_charge]
    rfl
  all_goals rfl

/-! ## The kinds of operand use (30_encoding.md R92) -/

theorem State.readOperand_value (o : Source) (base : Nat) (s : State) : (s.readOperand o base).1 = o.value s := by
  cases o <;> rfl

/-- The state after an operand is read is the state after the bus access, with the cycles charged. -/
theorem State.readOperand_state (o : Source) (base : Nat) (s : State) :
    (s.readOperand o base).2 = (o.after s).charge (base + (o.crosses s).toNat) := by
  cases o with
  | imm d => rfl
  | mem o =>
    show ((s.charge (base + o.penalty s)).touch (o.address s)) = _
    rw [State.touch_charge]
    have : o.penalty s = (o.crossed s).toNat := by
      unfold MemOperand.penalty
      cases o.crossed s <;> rfl
    rw [this]
    rfl

theorem Source.after_regs (o : Source) (s : State) :
    (o.after s).a = s.a ∧ (o.after s).x = s.x ∧ (o.after s).y = s.y ∧ (o.after s).sp = s.sp ∧ (o.after s).p = s.p
      ∧ (o.after s).pc = s.pc ∧ (o.after s).cyc = s.cyc ∧ (o.after s).params = s.params := by
  cases o with
  | imm d => exact ⟨rfl, rfl, rfl, rfl, rfl, rfl, rfl, rfl⟩
  | mem o => refine ⟨?_, ?_, ?_, ?_, ?_, ?_, ?_, ?_⟩ <;> simp [Source.after]

@[simp] theorem Source.after_a (o : Source) (s : State) : (o.after s).a = s.a := (o.after_regs s).1
@[simp] theorem Source.after_x (o : Source) (s : State) : (o.after s).x = s.x := (o.after_regs s).2.1
@[simp] theorem Source.after_y (o : Source) (s : State) : (o.after s).y = s.y := (o.after_regs s).2.2.1
@[simp] theorem Source.after_sp (o : Source) (s : State) : (o.after s).sp = s.sp := (o.after_regs s).2.2.2.1
@[simp] theorem Source.after_p (o : Source) (s : State) : (o.after s).p = s.p := (o.after_regs s).2.2.2.2.1
@[simp] theorem Source.after_pc (o : Source) (s : State) : (o.after s).pc = s.pc := (o.after_regs s).2.2.2.2.2.1
@[simp] theorem Source.after_cyc (o : Source) (s : State) : (o.after s).cyc = s.cyc :=
  (o.after_regs s).2.2.2.2.2.2.1
@[simp] theorem Source.after_params (o : Source) (s : State) : (o.after s).params = s.params :=
  (o.after_regs s).2.2.2.2.2.2.2

/-- A store without a read: the state after the bus access, with the cycles and the stall charged. -/
theorem State.writeOperand_state (o : MemOperand) (base : Nat) (v : Byte) (s : State) :
    s.writeOperand o base v
      = (s.memWrite (o.address s) v).1.charge (base + (s.memWrite (o.address s) v).2) := by
  unfold State.writeOperand State.store
  rw [State.memWrite_charge]
  unfold State.charge
  simp [Nat.add_assoc]

theorem State.modifyOperand_value (o : MemOperand) (base : Nat) (f : Byte → Byte) (s : State) :
    (s.modifyOperand o base f).1 = s.peek (o.address s) := rfl

/-- A read, then a store at the same address: the state after the two bus accesses, with the cycles and the stall
charged. -/
theorem State.modifyOperand_state (o : MemOperand) (base : Nat) (f : Byte → Byte) (s : State) :
    (s.modifyOperand o base f).2
      = ((s.touch (o.address s)).memWrite (o.address s) (f (s.peek (o.address s)))).1.charge
          (base + ((s.touch (o.address s)).memWrite (o.address s) (f (s.peek (o.address s)))).2) := by
  show ((s.charge base).touch (o.address s)).store (o.address s) (f (s.peek (o.address s))) = _
  unfold State.store
  rw [State.touch_charge, State.memWrite_charge]
  unfold State.charge
  simp [Nat.add_assoc]

/-! ## The stack (10_state.md R11): page 1 is RAM, so a push is a RAM write and a pull a RAM read -/

/-- The RAM location S names. -/
theorem stackAddress_region (sp : Byte) : region (stackAddress sp) = .ram (256 + sp.toNat) := by
  revert sp
  decide +kernel

theorem State.push_eq (v : Byte) (s : State) :
    s.push v = { s with ram := s.ram.write (256 + s.sp.toNat) v, sp := s.sp - 1#8 } := by
  unfold State.push State.store State.memWrite
  rw [stackAddress_region]
  rfl

theorem State.pull_eq (s : State) :
    s.pull = (s.ram.read (256 + (s.sp + 1#8).toNat), { s with sp := s.sp + 1#8 }) := by
  unfold State.pull State.memRead State.peek State.touch
  rw [stackAddress_region]

/-- The vectors lie in the cartridge, whose reads have no side effect. -/
theorem State.jumpThrough_eq (a : Addr) (s : State) (h : 0x4020 ≤ a.toNat) (h' : 0x4020 ≤ (a + 1#16).toNat) :
    s.jumpThrough a = { s with pc := joinBytes (s.peek (a + 1#16)) (s.peek a) } := by
  have h1 : s.touch a = s := by
    unfold State.touch
    rw [region_eq_cartridge.mpr h]
  have h2 : s.touch (a + 1#16) = s := by
    unfold State.touch
    rw [region_eq_cartridge.mpr h']
  unfold State.jumpThrough State.read16 State.memRead
  dsimp only
  rw [h1, h2]

end Sys2Proof.Machine
end

