-- ==== Sys2Proof/Laws/Exceptions.lean ====
section
/-! SUPPORT. The stack pairs, taking an exception and returning from one, each as one update of the state. -/

namespace Sys2Proof.Machine

theorem State.pushAddr_eq (v : Addr) (s : State) :
    s.pushAddr v =
      { s with
        ram := (s.ram.write (256 + s.sp.toNat) (highByte v)).write (256 + (s.sp - 1#8).toNat) (lowByte v)
        sp := s.sp - 1#8 - 1#8 } := by
  unfold State.pushAddr
  rw [State.push_eq, State.push_eq]

theorem State.pullAddr_eq (s : State) :
    s.pullAddr =
      (joinBytes (s.ram.read (256 + (s.sp + 1#8 + 1#8).toNat)) (s.ram.read (256 + (s.sp + 1#8).toNat)),
        { s with sp := s.sp + 1#8 + 1#8 }) := by
  unfold State.pullAddr
  rw [State.pull_eq]
  dsimp only
  rw [State.pull_eq]

/-- A read of the stack page (10_state.md R11). -/
theorem State.peek_stack (sp : Byte) (s : State) : s.peek (stackAddress sp) = s.ram.read (256 + sp.toNat) := by
  unfold State.peek
  rw [stackAddress_region]

/-- The vectors lie in the cartridge (20_memory.md R53): loading PC from one has no side effect and sees neither RAM nor
the CPU. -/
theorem State.jumpThrough_vector {vector : Addr} (h : 0x8000 ≤ vector.toNat) (hv : vector.toNat ≠ 0xFFFF) (s : State) :
    s.jumpThrough vector = { s with pc := joinBytes (s.cart.readPrg (vector + 1#16)) (s.cart.readPrg vector) } := by
  have h1 : region vector = .cartridge := region_eq_cartridge.mpr (by omega)
  have h2 : region (vector + 1#16) = .cartridge := region_eq_cartridge.mpr (by bv_omega)
  unfold State.jumpThrough State.read16 State.memRead State.touch State.peek
  rw [h1, h2]

/-- TAKING AN EXCEPTION (60_exceptions.md R238, 45_flags_system.md R204) as one update of the state. -/
theorem State.enter_eq {vector : Addr} (h : 0x8000 ≤ vector.toNat) (hv : vector.toNat ≠ 0xFFFF) (ret : Addr) (pushed : Byte)
    (s : State) :
    s.enter vector ret pushed =
      { s with
        ram :=
          ((s.ram.write (256 + s.sp.toNat) (highByte ret)).write (256 + (s.sp - 1#8).toNat) (lowByte ret)).write
            (256 + (s.sp - 1#8 - 1#8).toNat) pushed
        sp := s.sp - 1#8 - 1#8 - 1#8
        p := putI true s.p
        pc := joinBytes (s.cart.readPrg (vector + 1#16)) (s.cart.readPrg vector) } := by
  unfold State.enter
  rw [State.pushAddr_eq, State.push_eq]
  dsimp only
  rw [State.jumpThrough_vector h hv]

/-- RETURNING FROM AN EXCEPTION (45_flags_system.md R205) as one update of the state. -/
theorem State.leave_eq (s : State) :
    s.leave =
      { s with
        p := pulledFlags (s.ram.read (256 + (s.sp + 1#8).toNat))
        sp := s.sp + 1#8 + 1#8 + 1#8
        pc :=
          joinBytes (s.ram.read (256 + (s.sp + 1#8 + 1#8 + 1#8).toNat)) (s.ram.read (256 + (s.sp + 1#8 + 1#8).toNat)) } := by
  unfold State.leave
  rw [State.pull_eq]
  dsimp only
  rw [State.pullAddr_eq]

end Sys2Proof.Machine
end

