-- ==== Sys2Proof/Laws/Flags.lean ====
section
/-! SUPPORT. The bits of P after each flag computation, and what the adder and the shifts compute in integers
(10_state.md R13, 42_arithmetic.md R130 to R134, 43_logic_shift.md R155). -/

namespace Sys2Proof.Machine

/-- Bit `j` of a flag byte after flag `i` was put to `b`. -/
theorem getLsbD_putFlag (i j : Nat) (b : Bool) (p : Byte) :
    (putFlag i b p).getLsbD j = if j = i ∧ i < 8 then b else p.getLsbD j := by
  unfold putFlag
  rcases Nat.lt_or_ge j 8 with hj | hj
  · split
    · simp only [BitVec.getLsbD_or, BitVec.getLsbD_shiftLeft, BitVec.getLsbD_one]
      split <;> rename_i h
      · obtain ⟨rfl, hi⟩ := h
        simp [*]
      · have : j < i ∨ i < j ∨ 8 ≤ i := by omega
        rcases this with h' | h' | h'
        · simp [h']
        · simp; omega
        · simp; omega
    · simp only [BitVec.getLsbD_and, BitVec.getLsbD_not, BitVec.getLsbD_shiftLeft, BitVec.getLsbD_one]
      split <;> rename_i h
      · obtain ⟨rfl, hi⟩ := h
        simp [hi]
        cases b <;> simp_all
      · have : j < i ∨ i < j ∨ 8 ≤ i := by omega
        rcases this with h' | h' | h'
        · simp [h', hj]
        · have : j - i ≠ 0 := by omega
          simp [hj]; omega
        · have : j < i := by omega
          simp [this, hj]
  · have h1 : ∀ q : Byte, q.getLsbD j = false := fun q => BitVec.getLsbD_of_ge q j hj
    rw [h1]
    split
    · omega
    · exact (h1 p).symm

/-- Bit `j` of a flag byte after `SetNZ`. -/
theorem getLsbD_putNZ (v p : Byte) (j : Nat) :
    (putNZ v p).getLsbD j = if j = 7 then v.getLsbD 7 else if j = 1 then v == 0#8 else p.getLsbD j := by
  simp only [putNZ, putZ, putN, getLsbD_putFlag]
  by_cases h7 : j = 7
  · subst h7; simp
  · by_cases h1 : j = 1
    · subst h1; simp
    · simp [h7, h1]

/-- Bit `j` of a flag byte after the four flags of an adder result. -/
theorem getLsbD_putAlu (r : AluResult) (p : Byte) (j : Nat) :
    (putAlu r p).getLsbD j = if j = 7 then r.negative else if j = 6 then r.overflow else if j = 1 then r.zero
      else if j = 0 then r.carry else p.getLsbD j := by
  simp only [putAlu, putZ, putN, putV, putC, getLsbD_putFlag]
  by_cases h7 : j = 7
  · subst h7; simp
  · by_cases h6 : j = 6
    · subst h6; simp
    · by_cases h1 : j = 1
      · subst h1; simp
      · by_cases h0 : j = 0
        · subst h0; simp
        · simp [h7, h6, h1, h0]

/-- Bit 7 of a byte is its being at least 128. -/
theorem getLsbD_seven (b : Byte) : b.getLsbD 7 = decide (128 ≤ b.toNat) := by
  have h := BitVec.msb_eq_decide b
  rw [BitVec.msb_eq_getLsbD_last] at h
  simpa using h

/-- The signed value of a byte from its unsigned one. -/
theorem toInt_byte (b : Byte) : b.toInt = if b.toNat < 128 then (b.toNat : Int) else (b.toNat : Int) - 256 := by
  rw [BitVec.toInt_eq_toNat_cond]
  simp only [show (2 * b.toNat < 2 ^ 8) = (b.toNat < 128) from propext (by omega)]
  rfl

/-- The binary adder in integers (42_arithmetic.md R130). -/
theorem addBinary_spec (a m : Byte) (c : Bool) (p : Byte) :
    IsBinarySum a m c.toNat (addBinary a m c).value (putAlu (addBinary a m c) p) := by
  have ha := a.isLt
  have hm := m.isLt
  have hc : c.toNat ≤ 1 := by cases c <;> decide
  refine ⟨by simp [addBinary], ?_, ?_⟩
  · rw [flagC, getLsbD_putAlu]
    simp [addBinary]
  · rw [flagV, getLsbD_putAlu]
    simp only [addBinary, reduceIte, Nat.reduceEqDiff, BitVec.getLsbD_and, BitVec.getLsbD_not, BitVec.getLsbD_xor]
    simp only [getLsbD_seven, BitVec.toNat_ofNat, toInt_byte]
    generalize a.toNat = x at *
    generalize m.toNat = y at *
    generalize c.toNat = z at *
    by_cases h1 : 128 ≤ x <;> by_cases h2 : 128 ≤ y <;> by_cases h3 : 128 ≤ (x + y + z) % 2 ^ 8 <;>
      simp [h1, h2, Nat.not_lt.mpr, Nat.lt_of_not_le] <;> omega

/-- Adding the complement is subtracting, in integers (42_arithmetic.md R133). -/
theorem subBinary_spec (a m : Byte) (c : Bool) (p : Byte) :
    IsBinaryDifference a m c.toNat (addBinary a (m ^^^ 0xFF#8) c).value (putAlu (addBinary a (m ^^^ 0xFF#8) c) p) := by
  have hx : (m ^^^ 0xFF#8).toNat = 255 - m.toNat := by
    revert m
    decide +kernel
  obtain ⟨h1, h2, h3⟩ := addBinary_spec a (m ^^^ 0xFF#8) c p
  have ha := a.isLt
  have hm := m.isLt
  have hc : c.toNat ≤ 1 := by cases c <;> decide
  rw [toInt_byte, toInt_byte] at h3
  rw [hx] at h1 h2 h3
  refine ⟨by rw [h1]; omega, h2.trans (by omega), h3.trans ?_⟩
  rw [toInt_byte, toInt_byte]
  split <;> split <;> split <;> omega

/-- N and Z after the binary adder are those of its result. -/
theorem addBinary_shows (a m : Byte) (c : Bool) (p : Byte) :
    flagN (putAlu (addBinary a m c) p) = (addBinary a m c).value.getLsbD 7
      ∧ (flagZ (putAlu (addBinary a m c) p) = true ↔ (addBinary a m c).value = 0#8) := by
  rw [flagN, flagZ, getLsbD_putAlu, getLsbD_putAlu]
  simp [addBinary]

/-- The four shifts in integers (43_logic_shift.md R155). -/
theorem shift_specs : ∀ (v : Byte) (c : Bool),
    IsAsl v (shiftAsl v c) ∧ IsLsr v (shiftLsr v c) ∧ IsRol v c (shiftRol v c) ∧ IsRor v c (shiftRor v c) := by
  unfold IsAsl IsLsr IsRol IsRor
  decide +kernel

/-- The compare in integers (42_arithmetic.md R134). -/
theorem compare_spec (r m : Byte) (s : State) : ShowsCompare r m (s.compare r m) := by
  refine ⟨?_, ?_, ?_⟩
  · simp only [State.compare, flagC, putC, getLsbD_putNZ, getLsbD_putFlag]
    simp
  · simp only [State.compare, flagZ, putC, getLsbD_putNZ, getLsbD_putFlag]
    simp only [reduceIte, Nat.reduceEqDiff, beq_iff_eq]
    constructor
    · intro h; bv_omega
    · rintro rfl; simp
  · simp only [State.compare, flagN, putC, getLsbD_putNZ, getLsbD_putFlag]
    simp only [reduceIte, getLsbD_seven, BitVec.toNat_sub, decide_eq_true_eq]
    have := r.isLt
    have := m.isLt
    omega

end Sys2Proof.Machine
end

