-- ==== Sys2Proof/Laws/Forms.lean ====
section
/-! SUPPORT. For each list of forms: every form in it has the opcode the list gives, and its instruction is the shared
operation of its rule at the form's operand and cycles. -/

namespace Sys2Proof.Machine

theorem ldaForms_exec {d : Byte} {a : Addr} {f : ReadForm} (h : f ∈ ldaForms d a) (s : State) :
    f.Encoded ∧ exec f.instr s = .next (s.loadA f.operand f.cycles) := by
  simp only [ldaForms, List.mem_cons, List.not_mem_nil, or_false] at h
  rcases h with rfl | rfl | rfl | rfl | rfl | rfl | rfl | rfl <;> exact ⟨rfl, rfl⟩

theorem ldxForms_exec {d : Byte} {a : Addr} {f : ReadForm} (h : f ∈ ldxForms d a) (s : State) :
    f.Encoded ∧ exec f.instr s = .next (s.loadX f.operand f.cycles) := by
  simp only [ldxForms, List.mem_cons, List.not_mem_nil, or_false] at h
  rcases h with rfl | rfl | rfl | rfl | rfl <;> exact ⟨rfl, rfl⟩

theorem ldyForms_exec {d : Byte} {a : Addr} {f : ReadForm} (h : f ∈ ldyForms d a) (s : State) :
    f.Encoded ∧ exec f.instr s = .next (s.loadY f.operand f.cycles) := by
  simp only [ldyForms, List.mem_cons, List.not_mem_nil, or_false] at h
  rcases h with rfl | rfl | rfl | rfl | rfl <;> exact ⟨rfl, rfl⟩

theorem adcForms_exec {d : Byte} {a : Addr} {f : ReadForm} (h : f ∈ adcForms d a) (s : State) :
    f.Encoded ∧ exec f.instr s = .next (s.adcOperand f.operand f.cycles) := by
  simp only [adcForms, List.mem_cons, List.not_mem_nil, or_false] at h
  rcases h with rfl | rfl | rfl | rfl | rfl | rfl | rfl | rfl <;> exact ⟨rfl, rfl⟩

theorem sbcForms_exec {d : Byte} {a : Addr} {f : ReadForm} (h : f ∈ sbcForms d a) (s : State) :
    f.Encoded ∧ exec f.instr s = .next (s.sbcOperand f.operand f.cycles) := by
  simp only [sbcForms, List.mem_cons, List.not_mem_nil, or_false] at h
  rcases h with rfl | rfl | rfl | rfl | rfl | rfl | rfl | rfl | rfl <;> exact ⟨rfl, rfl⟩

theorem cmpForms_exec {d : Byte} {a : Addr} {f : ReadForm} (h : f ∈ cmpForms d a) (s : State) :
    f.Encoded ∧ exec f.instr s = .next (s.compareOperand s.a f.operand f.cycles) := by
  simp only [cmpForms, List.mem_cons, List.not_mem_nil, or_false] at h
  rcases h with rfl | rfl | rfl | rfl | rfl | rfl | rfl | rfl <;> exact ⟨rfl, rfl⟩

theorem cpxForms_exec {d : Byte} {a : Addr} {f : ReadForm} (h : f ∈ cpxForms d a) (s : State) :
    f.Encoded ∧ exec f.instr s = .next (s.compareOperand s.x f.operand f.cycles) := by
  simp only [cpxForms, List.mem_cons, List.not_mem_nil, or_false] at h
  rcases h with rfl | rfl | rfl <;> exact ⟨rfl, rfl⟩

theorem cpyForms_exec {d : Byte} {a : Addr} {f : ReadForm} (h : f ∈ cpyForms d a) (s : State) :
    f.Encoded ∧ exec f.instr s = .next (s.compareOperand s.y f.operand f.cycles) := by
  simp only [cpyForms, List.mem_cons, List.not_mem_nil, or_false] at h
  rcases h with rfl | rfl | rfl <;> exact ⟨rfl, rfl⟩

theorem andForms_exec {d : Byte} {a : Addr} {f : ReadForm} (h : f ∈ andForms d a) (s : State) :
    f.Encoded ∧ exec f.instr s = .next (s.logicOperand (· &&& ·) f.operand f.cycles) := by
  simp only [andForms, List.mem_cons, List.not_mem_nil, or_false] at h
  rcases h with rfl | rfl | rfl | rfl | rfl | rfl | rfl | rfl <;> exact ⟨rfl, rfl⟩

theorem oraForms_exec {d : Byte} {a : Addr} {f : ReadForm} (h : f ∈ oraForms d a) (s : State) :
    f.Encoded ∧ exec f.instr s = .next (s.logicOperand (· ||| ·) f.operand f.cycles) := by
  simp only [oraForms, List.mem_cons, List.not_mem_nil, or_false] at h
  rcases h with rfl | rfl | rfl | rfl | rfl | rfl | rfl | rfl <;> exact ⟨rfl, rfl⟩

theorem eorForms_exec {d : Byte} {a : Addr} {f : ReadForm} (h : f ∈ eorForms d a) (s : State) :
    f.Encoded ∧ exec f.instr s = .next (s.logicOperand (· ^^^ ·) f.operand f.cycles) := by
  simp only [eorForms, List.mem_cons, List.not_mem_nil, or_false] at h
  rcases h with rfl | rfl | rfl | rfl | rfl | rfl | rfl | rfl <;> exact ⟨rfl, rfl⟩

theorem bitForms_exec {d : Byte} {a : Addr} {f : ReadForm} (h : f ∈ bitForms d a) (s : State) :
    f.Encoded ∧ exec f.instr s = .next (s.bitOperand f.operand f.cycles) := by
  simp only [bitForms, List.mem_cons, List.not_mem_nil, or_false] at h
  rcases h with rfl | rfl <;> exact ⟨rfl, rfl⟩

theorem staForms_exec {d : Byte} {a : Addr} {f : MemForm} (h : f ∈ staForms d a) (s : State) :
    f.Encoded ∧ exec f.instr s = .next (s.writeOperand f.operand f.cycles s.a) := by
  simp only [staForms, List.mem_cons, List.not_mem_nil, or_false] at h
  rcases h with rfl | rfl | rfl | rfl | rfl | rfl | rfl <;> exact ⟨rfl, rfl⟩

theorem stxForms_exec {d : Byte} {a : Addr} {f : MemForm} (h : f ∈ stxForms d a) (s : State) :
    f.Encoded ∧ exec f.instr s = .next (s.writeOperand f.operand f.cycles s.x) := by
  simp only [stxForms, List.mem_cons, List.not_mem_nil, or_false] at h
  rcases h with rfl | rfl | rfl <;> exact ⟨rfl, rfl⟩

theorem styForms_exec {d : Byte} {a : Addr} {f : MemForm} (h : f ∈ styForms d a) (s : State) :
    f.Encoded ∧ exec f.instr s = .next (s.writeOperand f.operand f.cycles s.y) := by
  simp only [styForms, List.mem_cons, List.not_mem_nil, or_false] at h
  rcases h with rfl | rfl | rfl <;> exact ⟨rfl, rfl⟩

theorem aaxForms_exec {d : Byte} {a : Addr} {f : MemForm} (h : f ∈ aaxForms d a) (s : State) :
    f.Encoded ∧ exec f.instr s = .next (s.writeOperand f.operand f.cycles (s.a &&& s.x)) := by
  simp only [aaxForms, List.mem_cons, List.not_mem_nil, or_false] at h
  rcases h with rfl | rfl | rfl | rfl <;> exact ⟨rfl, rfl⟩

theorem incForms_exec {d : Byte} {a : Addr} {f : MemForm} (h : f ∈ incForms d a) (s : State) :
    f.Encoded ∧ exec f.instr s = .next (s.bumpOperand 1#8 f.operand f.cycles) := by
  simp only [incForms, List.mem_cons, List.not_mem_nil, or_false] at h
  rcases h with rfl | rfl | rfl | rfl <;> exact ⟨rfl, rfl⟩

theorem decForms_exec {d : Byte} {a : Addr} {f : MemForm} (h : f ∈ decForms d a) (s : State) :
    f.Encoded ∧ exec f.instr s = .next (s.bumpOperand 0xFF#8 f.operand f.cycles) := by
  simp only [decForms, List.mem_cons, List.not_mem_nil, or_false] at h
  rcases h with rfl | rfl | rfl | rfl <;> exact ⟨rfl, rfl⟩

theorem aslForms_exec {d : Byte} {a : Addr} {f : MemForm} (h : f ∈ aslForms d a) (s : State) :
    f.Encoded ∧ exec f.instr s = .next (s.shiftOperand shiftAsl f.operand f.cycles) := by
  simp only [aslForms, List.mem_cons, List.not_mem_nil, or_false] at h
  rcases h with rfl | rfl | rfl | rfl <;> exact ⟨rfl, rfl⟩

theorem lsrForms_exec {d : Byte} {a : Addr} {f : MemForm} (h : f ∈ lsrForms d a) (s : State) :
    f.Encoded ∧ exec f.instr s = .next (s.shiftOperand shiftLsr f.operand f.cycles) := by
  simp only [lsrForms, List.mem_cons, List.not_mem_nil, or_false] at h
  rcases h with rfl | rfl | rfl | rfl <;> exact ⟨rfl, rfl⟩

theorem rolForms_exec {d : Byte} {a : Addr} {f : MemForm} (h : f ∈ rolForms d a) (s : State) :
    f.Encoded ∧ exec f.instr s = .next (s.shiftOperand shiftRol f.operand f.cycles) := by
  simp only [rolForms, List.mem_cons, List.not_mem_nil, or_false] at h
  rcases h with rfl | rfl | rfl | rfl <;> exact ⟨rfl, rfl⟩

theorem rorForms_exec {d : Byte} {a : Addr} {f : MemForm} (h : f ∈ rorForms d a) (s : State) :
    f.Encoded ∧ exec f.instr s = .next (s.shiftOperand shiftRor f.operand f.cycles) := by
  simp only [rorForms, List.mem_cons, List.not_mem_nil, or_false] at h
  rcases h with rfl | rfl | rfl | rfl <;> exact ⟨rfl, rfl⟩

theorem sloForms_exec {d : Byte} {a : Addr} {f : MemForm} (h : f ∈ sloForms d a) (s : State) :
    f.Encoded ∧ exec f.instr s = .next (s.shiftThenLogic shiftAsl (· ||| ·) f.operand f.cycles) := by
  simp only [sloForms, List.mem_cons, List.not_mem_nil, or_false] at h
  rcases h with rfl | rfl | rfl | rfl | rfl | rfl | rfl <;> exact ⟨rfl, rfl⟩

theorem rlaForms_exec {d : Byte} {a : Addr} {f : MemForm} (h : f ∈ rlaForms d a) (s : State) :
    f.Encoded ∧ exec f.instr s = .next (s.shiftThenLogic shiftRol (· &&& ·) f.operand f.cycles) := by
  simp only [rlaForms, List.mem_cons, List.not_mem_nil, or_false] at h
  rcases h with rfl | rfl | rfl | rfl | rfl | rfl | rfl <;> exact ⟨rfl, rfl⟩

theorem sreForms_exec {d : Byte} {a : Addr} {f : MemForm} (h : f ∈ sreForms d a) (s : State) :
    f.Encoded ∧ exec f.instr s = .next (s.shiftThenLogic shiftLsr (· ^^^ ·) f.operand f.cycles) := by
  simp only [sreForms, List.mem_cons, List.not_mem_nil, or_false] at h
  rcases h with rfl | rfl | rfl | rfl | rfl | rfl | rfl <;> exact ⟨rfl, rfl⟩

theorem rraForms_exec {d : Byte} {a : Addr} {f : MemForm} (h : f ∈ rraForms d a) (s : State) :
    f.Encoded ∧ exec f.instr s = .next (s.rotateThenAdc f.operand f.cycles) := by
  simp only [rraForms, List.mem_cons, List.not_mem_nil, or_false] at h
  rcases h with rfl | rfl | rfl | rfl | rfl | rfl | rfl <;> exact ⟨rfl, rfl⟩

theorem dcpForms_exec {d : Byte} {a : Addr} {f : MemForm} (h : f ∈ dcpForms d a) (s : State) :
    f.Encoded ∧ exec f.instr s = .next (s.decrementThenCompare f.operand f.cycles) := by
  simp only [dcpForms, List.mem_cons, List.not_mem_nil, or_false] at h
  rcases h with rfl | rfl | rfl | rfl | rfl | rfl | rfl <;> exact ⟨rfl, rfl⟩

theorem iscForms_exec {d : Byte} {a : Addr} {f : MemForm} (h : f ∈ iscForms d a) (s : State) :
    f.Encoded ∧ exec f.instr s = .next (s.incrementThenSbc f.operand f.cycles) := by
  simp only [iscForms, List.mem_cons, List.not_mem_nil, or_false] at h
  rcases h with rfl | rfl | rfl | rfl | rfl | rfl | rfl <;> exact ⟨rfl, rfl⟩

theorem laxForms_exec {d : Byte} {a : Addr} {f : ReadForm} (h : f ∈ laxForms d a) (s : State) :
    f.Encoded ∧ ∃ o, f.operand = .mem o ∧ exec f.instr s = .next (s.loadAX o f.cycles) := by
  simp only [laxForms, List.mem_cons, List.not_mem_nil, or_false] at h
  rcases h with rfl | rfl | rfl | rfl | rfl | rfl <;> exact ⟨rfl, _, rfl, rfl⟩

theorem dopForms_exec {d : Byte} {a : Addr} {f : ReadForm} (h : f ∈ dopForms d a) (s : State) :
    f.Encoded ∧ ∃ o, f.operand = .mem o ∧ exec f.instr s = .next (s.readAndDiscard o f.cycles) := by
  simp only [dopForms, List.mem_cons, List.not_mem_nil, or_false] at h
  rcases h with rfl | rfl | rfl | rfl | rfl | rfl | rfl | rfl | rfl <;> exact ⟨rfl, _, rfl, rfl⟩

theorem topForms_exec {d : Byte} {a : Addr} {f : ReadForm} (h : f ∈ topForms d a) (s : State) :
    f.Encoded ∧ ∃ o, f.operand = .mem o ∧ exec f.instr s = .next (s.readAndDiscard o f.cycles) := by
  simp only [topForms, List.mem_cons, List.not_mem_nil, or_false] at h
  rcases h with rfl | rfl | rfl | rfl | rfl | rfl | rfl <;> exact ⟨rfl, _, rfl, rfl⟩

end Sys2Proof.Machine
end

