-- ==== Sys2Proof/Laws/Memories.lean ====
section
/-! SUPPORT. Every memory operation keeps the canonical form of every memory and the bank indices in range. -/

namespace Sys2Proof.Machine

theorem palIndex_lt (a : BitVec 5) : palIndex a < 32 := by
  unfold palIndex
  split <;> omega

theorem nametable_offset_lt (c : Cart) (a : PpuAddr) : (c.nametableLocation a).2 < 1024 := by
  unfold Cart.nametableLocation
  dsimp only
  rw [BitVec.toNat_and]
  exact Nat.lt_succ_of_le Nat.and_le_right

/-- The form of the memories depends on the memories, the slots and the shape of the cartridge alone. -/
theorem State.MemoriesOk.congr {s t : State} (h : s.MemoriesOk) (hram : t.ram = s.ram) (hoam : t.ppu.oam = s.ppu.oam)
    (hpal : t.ppu.palette = s.ppu.palette) (hnt : t.ppu.ntRam = s.ppu.ntRam)
    (hfb : t.ppu.frameBuffer = s.ppu.frameBuffer) (hlb : t.ppu.lineBuffer = s.ppu.lineBuffer)
    (hcart : t.cart = s.cart) : t.MemoriesOk := by
  unfold State.MemoriesOk Ppu.MemoriesOk at *
  rw [hram, hoam, hpal, hnt, hfb, hlb, hcart]
  exact h

theorem State.MemoriesOk.withMapper {s : State} (h : s.MemoriesOk) (m : Mapper) :
    State.MemoriesOk { s with cart := { s.cart with mapper := m } } :=
  ⟨h.1, h.2.1, h.2.2.1.congr rfl rfl rfl rfl rfl rfl, h.2.2.2.congr rfl rfl rfl rfl⟩

theorem State.observe_eq (s : State) (a : PpuAddr) :
    ∃ m, (s.observe a).1 = { s.cart with mapper := m } ∧ m.kind = s.cart.mapper.kind := by
  unfold State.observe
  split
  · exact Cart.observeA12_eq _ a s.cart
  · exact ⟨s.cart.mapper, rfl, rfl⟩

theorem State.MemoriesOk.touchPpu {s : State} (h : s.MemoriesOk) (a : PpuAddr) : (s.touchPpu a).MemoriesOk := by
  obtain ⟨m, hm, -⟩ := s.observe_eq a
  exact (h.withMapper m).congr rfl rfl rfl rfl rfl rfl hm

theorem State.MemoriesOk.touch {s : State} (h : s.MemoriesOk) (a : Addr) : (s.touch a).MemoriesOk := by
  unfold State.touch
  split
  · unfold State.touchPpuRegister
    split
    · exact h.congr rfl rfl rfl rfl rfl rfl rfl
    · exact (h.touchPpu _).congr rfl rfl rfl rfl rfl rfl rfl
    · exact h
  all_goals exact h.congr rfl rfl rfl rfl rfl rfl rfl

theorem State.MemoriesOk.withOam {s : State} (h : s.MemoriesOk) (k : Byte) (b : Byte) :
    State.MemoriesOk { s with ppu := { s.ppu with oam := s.ppu.oam.write k.toNat b } } :=
  ⟨h.1, ⟨Memory.wf_write k.isLt h.2.1.1, h.2.1.2⟩, h.2.2⟩

theorem State.MemoriesOk.writePpu {s : State} (h : s.MemoriesOk) (a : PpuAddr) (b : Byte) :
    (s.writePpu a b).MemoriesOk := by
  have hoff := nametable_offset_lt s.cart a
  unfold State.writePpu
  split
  · have h' := h.touchPpu a
    exact ⟨h'.1, h'.2.1, h'.2.2.1.writeChr h'.2.2.2 a b, h'.2.2.2.writeChr a b⟩
  · split
    · dsimp only
      split
      · refine ⟨h.1, ⟨h.2.1.1, h.2.1.2.1, Memory.wf_write ?_ h.2.1.2.2.1, h.2.1.2.2.2⟩, h.2.2⟩
        omega
      · refine ⟨h.1, h.2.1, ⟨h.2.2.1.1, h.2.2.1.2.1, h.2.2.1.2.2.1, Memory.wf_write ?_ h.2.2.1.2.2.2⟩,
          h.2.2.2.congr rfl rfl rfl rfl⟩
        have := (s.cart.nametableLocation a).1.isLt
        omega
    · exact ⟨h.1, ⟨h.2.1.1, Memory.wf_write (palIndex_lt _) h.2.1.2.1, h.2.1.2.2⟩, h.2.2⟩

theorem State.MemoriesOk.writePpuRegister {s : State} (h : s.MemoriesOk) (r : BitVec 3) (b : Byte) :
    (s.writePpuRegister r b).MemoriesOk := by
  unfold State.writePpuRegister
  split
  case h_4 => exact (h.withOam s.ppu.oamAddr b).congr rfl rfl rfl rfl rfl rfl rfl
  case h_5 =>
    unfold Ppu.writeScroll
    split <;> exact h.congr rfl rfl rfl rfl rfl rfl rfl
  case h_6 =>
    unfold Ppu.writeAddress
    split <;> exact h.congr rfl rfl rfl rfl rfl rfl rfl
  case h_7 => exact (h.writePpu _ b).congr rfl rfl rfl rfl rfl rfl rfl
  all_goals exact h.congr rfl rfl rfl rfl rfl rfl rfl

theorem State.MemoriesOk.oamDmaCopy {s : State} (h : s.MemoriesOk) (page : Byte) (k : Nat) :
    (oamDmaCopy page k s).MemoriesOk := by
  induction k generalizing s with
  | zero => exact h
  | succ k ih => exact ih ((h.touch _).withOam _ _)

theorem State.MemoriesOk.memWrite {s : State} (h : s.MemoriesOk) (a : Addr) (b : Byte) : (s.memWrite a b).1.MemoriesOk := by
  unfold State.memWrite
  split
  case h_1 k hr =>
    refine ⟨Memory.wf_write ?_ h.1, h.2⟩
    obtain ⟨-, rfl⟩ := region_eq_ram.mp hr
    rw [BitVec.toNat_and]
    exact Nat.lt_succ_of_le Nat.and_le_right
  case h_2 => exact h.writePpuRegister _ b
  case h_4 => exact (h.oamDmaCopy b 256).congr rfl rfl rfl rfl rfl rfl rfl
  case h_9 => exact ⟨h.1, h.2.1, h.2.2.1.writePrg a b, h.2.2.2.writePrg a b⟩
  all_goals exact h.congr rfl rfl rfl rfl rfl rfl rfl

/-- Every instruction keeps the form of the memories. -/
theorem memoriesOk_busKeeps : BusKeeps State.MemoriesOk where
  cpu := fun ⟨_, hram, hppu, _, hcart, _, _, _⟩ h =>
    h.congr hram (by rw [hppu]) (by rw [hppu]) (by rw [hppu]) (by rw [hppu]) (by rw [hppu]) hcart
  touch := fun a _ h => h.touch a
  write := fun a b _ h => h.memWrite a b

end Sys2Proof.Machine
end

