-- ==== Sys2Proof/Laws/PerInstr.lean ====
section
/-! SUPPORT. The statement family `Encoding`: decoding the bytes of a well-formed instruction gives it back, whatever
bytes follow (30_encoding.md R70, R71, R85), one lemma per constructor. -/

namespace Sys2Proof.Laws.Encoding

open Sys2Proof.Machine

/-- Decoding the encoded instruction gives it back and leaves the bytes after it. -/
def Statement (i : Instr) : Prop := i.wf = true → ∀ rest : List Byte, decode (encode i ++ rest) = .ok (i, rest)

theorem join_split (a : Addr) : joinBytes (highByte a) (lowByte a) = a := by
  unfold joinBytes highByte lowByte
  ext i hi
  simp only [BitVec.getElem_append, BitVec.getElem_setWidth, BitVec.getLsbD_ushiftRight]
  split <;> rename_i h
  · exact BitVec.getLsbD_eq_getElem hi
  · rw [show 8 + (i - 8) = i by omega]
    exact BitVec.getLsbD_eq_getElem hi

theorem of_word {op : Byte} {f : Addr → Instr} (h : shapeOf op = .word f) (a : Addr) (rest : List Byte) :
    decode (op :: lowByte a :: highByte a :: rest) = .ok (f a, rest) := by
  simp only [decode, h, join_split]

theorem ldaIzx (d : Byte) : Statement (.ldaIzx d) := fun _ _ => rfl
theorem ldaZp (d : Byte) : Statement (.ldaZp d) := fun _ _ => rfl
theorem ldaImm (d : Byte) : Statement (.ldaImm d) := fun _ _ => rfl
theorem ldaAbs (a : Addr) : Statement (.ldaAbs a) := fun _ rest => of_word rfl a rest
theorem ldaIzy (d : Byte) : Statement (.ldaIzy d) := fun _ _ => rfl
theorem ldaZpx (d : Byte) : Statement (.ldaZpx d) := fun _ _ => rfl
theorem ldaAby (a : Addr) : Statement (.ldaAby a) := fun _ rest => of_word rfl a rest
theorem ldaAbx (a : Addr) : Statement (.ldaAbx a) := fun _ rest => of_word rfl a rest
theorem ldxImm (d : Byte) : Statement (.ldxImm d) := fun _ _ => rfl
theorem ldxZp (d : Byte) : Statement (.ldxZp d) := fun _ _ => rfl
theorem ldxAbs (a : Addr) : Statement (.ldxAbs a) := fun _ rest => of_word rfl a rest
theorem ldxZpy (d : Byte) : Statement (.ldxZpy d) := fun _ _ => rfl
theorem ldxAby (a : Addr) : Statement (.ldxAby a) := fun _ rest => of_word rfl a rest
theorem ldyImm (d : Byte) : Statement (.ldyImm d) := fun _ _ => rfl
theorem ldyZp (d : Byte) : Statement (.ldyZp d) := fun _ _ => rfl
theorem ldyAbs (a : Addr) : Statement (.ldyAbs a) := fun _ rest => of_word rfl a rest
theorem ldyZpx (d : Byte) : Statement (.ldyZpx d) := fun _ _ => rfl
theorem ldyAbx (a : Addr) : Statement (.ldyAbx a) := fun _ rest => of_word rfl a rest
theorem staIzx (d : Byte) : Statement (.staIzx d) := fun _ _ => rfl
theorem staZp (d : Byte) : Statement (.staZp d) := fun _ _ => rfl
theorem staAbs (a : Addr) : Statement (.staAbs a) := fun _ rest => of_word rfl a rest
theorem staIzy (d : Byte) : Statement (.staIzy d) := fun _ _ => rfl
theorem staZpx (d : Byte) : Statement (.staZpx d) := fun _ _ => rfl
theorem staAby (a : Addr) : Statement (.staAby a) := fun _ rest => of_word rfl a rest
theorem staAbx (a : Addr) : Statement (.staAbx a) := fun _ rest => of_word rfl a rest
theorem stxZp (d : Byte) : Statement (.stxZp d) := fun _ _ => rfl
theorem stxAbs (a : Addr) : Statement (.stxAbs a) := fun _ rest => of_word rfl a rest
theorem stxZpy (d : Byte) : Statement (.stxZpy d) := fun _ _ => rfl
theorem styZp (d : Byte) : Statement (.styZp d) := fun _ _ => rfl
theorem styAbs (a : Addr) : Statement (.styAbs a) := fun _ rest => of_word rfl a rest
theorem styZpx (d : Byte) : Statement (.styZpx d) := fun _ _ => rfl
theorem tax : Statement .tax := fun _ _ => rfl
theorem tay : Statement .tay := fun _ _ => rfl
theorem txa : Statement .txa := fun _ _ => rfl
theorem tya : Statement .tya := fun _ _ => rfl
theorem tsx : Statement .tsx := fun _ _ => rfl
theorem txs : Statement .txs := fun _ _ => rfl
theorem pha : Statement .pha := fun _ _ => rfl
theorem php : Statement .php := fun _ _ => rfl
theorem pla : Statement .pla := fun _ _ => rfl
theorem plp : Statement .plp := fun _ _ => rfl
theorem adcIzx (d : Byte) : Statement (.adcIzx d) := fun _ _ => rfl
theorem adcZp (d : Byte) : Statement (.adcZp d) := fun _ _ => rfl
theorem adcImm (d : Byte) : Statement (.adcImm d) := fun _ _ => rfl
theorem adcAbs (a : Addr) : Statement (.adcAbs a) := fun _ rest => of_word rfl a rest
theorem adcIzy (d : Byte) : Statement (.adcIzy d) := fun _ _ => rfl
theorem adcZpx (d : Byte) : Statement (.adcZpx d) := fun _ _ => rfl
theorem adcAby (a : Addr) : Statement (.adcAby a) := fun _ rest => of_word rfl a rest
theorem adcAbx (a : Addr) : Statement (.adcAbx a) := fun _ rest => of_word rfl a rest
theorem sbcIzx (d : Byte) : Statement (.sbcIzx d) := fun _ _ => rfl
theorem sbcZp (d : Byte) : Statement (.sbcZp d) := fun _ _ => rfl
theorem sbcImm (d : Byte) : Statement (.sbcImm d) := fun _ _ => rfl
theorem sbcAbs (a : Addr) : Statement (.sbcAbs a) := fun _ rest => of_word rfl a rest
theorem sbcIzy (d : Byte) : Statement (.sbcIzy d) := fun _ _ => rfl
theorem sbcZpx (d : Byte) : Statement (.sbcZpx d) := fun _ _ => rfl
theorem sbcAby (a : Addr) : Statement (.sbcAby a) := fun _ rest => of_word rfl a rest
theorem sbcAbx (a : Addr) : Statement (.sbcAbx a) := fun _ rest => of_word rfl a rest
theorem cmpIzx (d : Byte) : Statement (.cmpIzx d) := fun _ _ => rfl
theorem cmpZp (d : Byte) : Statement (.cmpZp d) := fun _ _ => rfl
theorem cmpImm (d : Byte) : Statement (.cmpImm d) := fun _ _ => rfl
theorem cmpAbs (a : Addr) : Statement (.cmpAbs a) := fun _ rest => of_word rfl a rest
theorem cmpIzy (d : Byte) : Statement (.cmpIzy d) := fun _ _ => rfl
theorem cmpZpx (d : Byte) : Statement (.cmpZpx d) := fun _ _ => rfl
theorem cmpAby (a : Addr) : Statement (.cmpAby a) := fun _ rest => of_word rfl a rest
theorem cmpAbx (a : Addr) : Statement (.cmpAbx a) := fun _ rest => of_word rfl a rest
theorem cpxImm (d : Byte) : Statement (.cpxImm d) := fun _ _ => rfl
theorem cpxZp (d : Byte) : Statement (.cpxZp d) := fun _ _ => rfl
theorem cpxAbs (a : Addr) : Statement (.cpxAbs a) := fun _ rest => of_word rfl a rest
theorem cpyImm (d : Byte) : Statement (.cpyImm d) := fun _ _ => rfl
theorem cpyZp (d : Byte) : Statement (.cpyZp d) := fun _ _ => rfl
theorem cpyAbs (a : Addr) : Statement (.cpyAbs a) := fun _ rest => of_word rfl a rest
theorem incZp (d : Byte) : Statement (.incZp d) := fun _ _ => rfl
theorem incAbs (a : Addr) : Statement (.incAbs a) := fun _ rest => of_word rfl a rest
theorem incZpx (d : Byte) : Statement (.incZpx d) := fun _ _ => rfl
theorem incAbx (a : Addr) : Statement (.incAbx a) := fun _ rest => of_word rfl a rest
theorem inx : Statement .inx := fun _ _ => rfl
theorem iny : Statement .iny := fun _ _ => rfl
theorem decZp (d : Byte) : Statement (.decZp d) := fun _ _ => rfl
theorem decAbs (a : Addr) : Statement (.decAbs a) := fun _ rest => of_word rfl a rest
theorem decZpx (d : Byte) : Statement (.decZpx d) := fun _ _ => rfl
theorem decAbx (a : Addr) : Statement (.decAbx a) := fun _ rest => of_word rfl a rest
theorem dex : Statement .dex := fun _ _ => rfl
theorem dey : Statement .dey := fun _ _ => rfl
theorem andIzx (d : Byte) : Statement (.andIzx d) := fun _ _ => rfl
theorem andZp (d : Byte) : Statement (.andZp d) := fun _ _ => rfl
theorem andImm (d : Byte) : Statement (.andImm d) := fun _ _ => rfl
theorem andAbs (a : Addr) : Statement (.andAbs a) := fun _ rest => of_word rfl a rest
theorem andIzy (d : Byte) : Statement (.andIzy d) := fun _ _ => rfl
theorem andZpx (d : Byte) : Statement (.andZpx d) := fun _ _ => rfl
theorem andAby (a : Addr) : Statement (.andAby a) := fun _ rest => of_word rfl a rest
theorem andAbx (a : Addr) : Statement (.andAbx a) := fun _ rest => of_word rfl a rest
theorem oraIzx (d : Byte) : Statement (.oraIzx d) := fun _ _ => rfl
theorem oraZp (d : Byte) : Statement (.oraZp d) := fun _ _ => rfl
theorem oraImm (d : Byte) : Statement (.oraImm d) := fun _ _ => rfl
theorem oraAbs (a : Addr) : Statement (.oraAbs a) := fun _ rest => of_word rfl a rest
theorem oraIzy (d : Byte) : Statement (.oraIzy d) := fun _ _ => rfl
theorem oraZpx (d : Byte) : Statement (.oraZpx d) := fun _ _ => rfl
theorem oraAby (a : Addr) : Statement (.oraAby a) := fun _ rest => of_word rfl a rest
theorem oraAbx (a : Addr) : Statement (.oraAbx a) := fun _ rest => of_word rfl a rest
theorem eorIzx (d : Byte) : Statement (.eorIzx d) := fun _ _ => rfl
theorem eorZp (d : Byte) : Statement (.eorZp d) := fun _ _ => rfl
theorem eorImm (d : Byte) : Statement (.eorImm d) := fun _ _ => rfl
theorem eorAbs (a : Addr) : Statement (.eorAbs a) := fun _ rest => of_word rfl a rest
theorem eorIzy (d : Byte) : Statement (.eorIzy d) := fun _ _ => rfl
theorem eorZpx (d : Byte) : Statement (.eorZpx d) := fun _ _ => rfl
theorem eorAby (a : Addr) : Statement (.eorAby a) := fun _ rest => of_word rfl a rest
theorem eorAbx (a : Addr) : Statement (.eorAbx a) := fun _ rest => of_word rfl a rest
theorem bitZp (d : Byte) : Statement (.bitZp d) := fun _ _ => rfl
theorem bitAbs (a : Addr) : Statement (.bitAbs a) := fun _ rest => of_word rfl a rest
theorem aslZp (d : Byte) : Statement (.aslZp d) := fun _ _ => rfl
theorem aslAcc : Statement .aslAcc := fun _ _ => rfl
theorem aslAbs (a : Addr) : Statement (.aslAbs a) := fun _ rest => of_word rfl a rest
theorem aslZpx (d : Byte) : Statement (.aslZpx d) := fun _ _ => rfl
theorem aslAbx (a : Addr) : Statement (.aslAbx a) := fun _ rest => of_word rfl a rest
theorem lsrZp (d : Byte) : Statement (.lsrZp d) := fun _ _ => rfl
theorem lsrAcc : Statement .lsrAcc := fun _ _ => rfl
theorem lsrAbs (a : Addr) : Statement (.lsrAbs a) := fun _ rest => of_word rfl a rest
theorem lsrZpx (d : Byte) : Statement (.lsrZpx d) := fun _ _ => rfl
theorem lsrAbx (a : Addr) : Statement (.lsrAbx a) := fun _ rest => of_word rfl a rest
theorem rolZp (d : Byte) : Statement (.rolZp d) := fun _ _ => rfl
theorem rolAcc : Statement .rolAcc := fun _ _ => rfl
theorem rolAbs (a : Addr) : Statement (.rolAbs a) := fun _ rest => of_word rfl a rest
theorem rolZpx (d : Byte) : Statement (.rolZpx d) := fun _ _ => rfl
theorem rolAbx (a : Addr) : Statement (.rolAbx a) := fun _ rest => of_word rfl a rest
theorem rorZp (d : Byte) : Statement (.rorZp d) := fun _ _ => rfl
theorem rorAcc : Statement .rorAcc := fun _ _ => rfl
theorem rorAbs (a : Addr) : Statement (.rorAbs a) := fun _ rest => of_word rfl a rest
theorem rorZpx (d : Byte) : Statement (.rorZpx d) := fun _ _ => rfl
theorem rorAbx (a : Addr) : Statement (.rorAbx a) := fun _ rest => of_word rfl a rest
theorem bpl (d : Byte) : Statement (.bpl d) := fun _ _ => rfl
theorem bmi (d : Byte) : Statement (.bmi d) := fun _ _ => rfl
theorem bvc (d : Byte) : Statement (.bvc d) := fun _ _ => rfl
theorem bvs (d : Byte) : Statement (.bvs d) := fun _ _ => rfl
theorem bcc (d : Byte) : Statement (.bcc d) := fun _ _ => rfl
theorem bcs (d : Byte) : Statement (.bcs d) := fun _ _ => rfl
theorem bne (d : Byte) : Statement (.bne d) := fun _ _ => rfl
theorem beq (d : Byte) : Statement (.beq d) := fun _ _ => rfl
theorem jmpAbs (a : Addr) : Statement (.jmpAbs a) := fun _ rest => of_word rfl a rest
theorem jsr (a : Addr) : Statement (.jsr a) := fun _ rest => of_word rfl a rest
theorem jmpInd (a : Addr) : Statement (.jmpInd a) := fun _ rest => of_word rfl a rest
theorem rts : Statement .rts := fun _ _ => rfl
theorem clc : Statement .clc := fun _ _ => rfl
theorem sec : Statement .sec := fun _ _ => rfl
theorem cli : Statement .cli := fun _ _ => rfl
theorem sei : Statement .sei := fun _ _ => rfl
theorem clv : Statement .clv := fun _ _ => rfl
theorem cld : Statement .cld := fun _ _ => rfl
theorem sed : Statement .sed := fun _ _ => rfl
theorem nop : Statement .nop := fun _ _ => rfl
theorem brk : Statement .brk := fun _ _ => rfl
theorem rti : Statement .rti := fun _ _ => rfl
theorem dopZp04 (d : Byte) : Statement (.dopZp04 d) := fun _ _ => rfl
theorem dopZpx14 (d : Byte) : Statement (.dopZpx14 d) := fun _ _ => rfl
theorem dopZpx34 (d : Byte) : Statement (.dopZpx34 d) := fun _ _ => rfl
theorem dopZp44 (d : Byte) : Statement (.dopZp44 d) := fun _ _ => rfl
theorem dopZpx54 (d : Byte) : Statement (.dopZpx54 d) := fun _ _ => rfl
theorem dopZp64 (d : Byte) : Statement (.dopZp64 d) := fun _ _ => rfl
theorem dopZpx74 (d : Byte) : Statement (.dopZpx74 d) := fun _ _ => rfl
theorem dopImm80 (d : Byte) : Statement (.dopImm80 d) := fun _ _ => rfl
theorem dopImm82 (d : Byte) : Statement (.dopImm82 d) := fun _ _ => rfl
theorem dopImm89 (d : Byte) : Statement (.dopImm89 d) := fun _ _ => rfl
theorem dopImmC2 (d : Byte) : Statement (.dopImmC2 d) := fun _ _ => rfl
theorem dopZpxD4 (d : Byte) : Statement (.dopZpxD4 d) := fun _ _ => rfl
theorem dopImmE2 (d : Byte) : Statement (.dopImmE2 d) := fun _ _ => rfl
theorem dopZpxF4 (d : Byte) : Statement (.dopZpxF4 d) := fun _ _ => rfl
theorem topAbs (a : Addr) : Statement (.topAbs a) := fun _ rest => of_word rfl a rest
theorem topAbx1C (a : Addr) : Statement (.topAbx1C a) := fun _ rest => of_word rfl a rest
theorem topAbx3C (a : Addr) : Statement (.topAbx3C a) := fun _ rest => of_word rfl a rest
theorem topAbx5C (a : Addr) : Statement (.topAbx5C a) := fun _ rest => of_word rfl a rest
theorem topAbx7C (a : Addr) : Statement (.topAbx7C a) := fun _ rest => of_word rfl a rest
theorem topAbxDC (a : Addr) : Statement (.topAbxDC a) := fun _ rest => of_word rfl a rest
theorem topAbxFC (a : Addr) : Statement (.topAbxFC a) := fun _ rest => of_word rfl a rest
theorem laxIzx (d : Byte) : Statement (.laxIzx d) := fun _ _ => rfl
theorem laxZp (d : Byte) : Statement (.laxZp d) := fun _ _ => rfl
theorem laxAbs (a : Addr) : Statement (.laxAbs a) := fun _ rest => of_word rfl a rest
theorem laxIzy (d : Byte) : Statement (.laxIzy d) := fun _ _ => rfl
theorem laxZpy (d : Byte) : Statement (.laxZpy d) := fun _ _ => rfl
theorem laxAby (a : Addr) : Statement (.laxAby a) := fun _ rest => of_word rfl a rest
theorem aaxIzx (d : Byte) : Statement (.aaxIzx d) := fun _ _ => rfl
theorem aaxZp (d : Byte) : Statement (.aaxZp d) := fun _ _ => rfl
theorem aaxAbs (a : Addr) : Statement (.aaxAbs a) := fun _ rest => of_word rfl a rest
theorem aaxZpy (d : Byte) : Statement (.aaxZpy d) := fun _ _ => rfl
theorem sloIzx (d : Byte) : Statement (.sloIzx d) := fun _ _ => rfl
theorem sloZp (d : Byte) : Statement (.sloZp d) := fun _ _ => rfl
theorem sloAbs (a : Addr) : Statement (.sloAbs a) := fun _ rest => of_word rfl a rest
theorem sloIzy (d : Byte) : Statement (.sloIzy d) := fun _ _ => rfl
theorem sloZpx (d : Byte) : Statement (.sloZpx d) := fun _ _ => rfl
theorem sloAby (a : Addr) : Statement (.sloAby a) := fun _ rest => of_word rfl a rest
theorem sloAbx (a : Addr) : Statement (.sloAbx a) := fun _ rest => of_word rfl a rest
theorem rlaIzx (d : Byte) : Statement (.rlaIzx d) := fun _ _ => rfl
theorem rlaZp (d : Byte) : Statement (.rlaZp d) := fun _ _ => rfl
theorem rlaAbs (a : Addr) : Statement (.rlaAbs a) := fun _ rest => of_word rfl a rest
theorem rlaIzy (d : Byte) : Statement (.rlaIzy d) := fun _ _ => rfl
theorem rlaZpx (d : Byte) : Statement (.rlaZpx d) := fun _ _ => rfl
theorem rlaAby (a : Addr) : Statement (.rlaAby a) := fun _ rest => of_word rfl a rest
theorem rlaAbx (a : Addr) : Statement (.rlaAbx a) := fun _ rest => of_word rfl a rest
theorem sreIzx (d : Byte) : Statement (.sreIzx d) := fun _ _ => rfl
theorem sreZp (d : Byte) : Statement (.sreZp d) := fun _ _ => rfl
theorem sreAbs (a : Addr) : Statement (.sreAbs a) := fun _ rest => of_word rfl a rest
theorem sreIzy (d : Byte) : Statement (.sreIzy d) := fun _ _ => rfl
theorem sreZpx (d : Byte) : Statement (.sreZpx d) := fun _ _ => rfl
theorem sreAby (a : Addr) : Statement (.sreAby a) := fun _ rest => of_word rfl a rest
theorem sreAbx (a : Addr) : Statement (.sreAbx a) := fun _ rest => of_word rfl a rest
theorem rraIzx (d : Byte) : Statement (.rraIzx d) := fun _ _ => rfl
theorem rraZp (d : Byte) : Statement (.rraZp d) := fun _ _ => rfl
theorem rraAbs (a : Addr) : Statement (.rraAbs a) := fun _ rest => of_word rfl a rest
theorem rraIzy (d : Byte) : Statement (.rraIzy d) := fun _ _ => rfl
theorem rraZpx (d : Byte) : Statement (.rraZpx d) := fun _ _ => rfl
theorem rraAby (a : Addr) : Statement (.rraAby a) := fun _ rest => of_word rfl a rest
theorem rraAbx (a : Addr) : Statement (.rraAbx a) := fun _ rest => of_word rfl a rest
theorem dcpIzx (d : Byte) : Statement (.dcpIzx d) := fun _ _ => rfl
theorem dcpZp (d : Byte) : Statement (.dcpZp d) := fun _ _ => rfl
theorem dcpAbs (a : Addr) : Statement (.dcpAbs a) := fun _ rest => of_word rfl a rest
theorem dcpIzy (d : Byte) : Statement (.dcpIzy d) := fun _ _ => rfl
theorem dcpZpx (d : Byte) : Statement (.dcpZpx d) := fun _ _ => rfl
theorem dcpAby (a : Addr) : Statement (.dcpAby a) := fun _ rest => of_word rfl a rest
theorem dcpAbx (a : Addr) : Statement (.dcpAbx a) := fun _ rest => of_word rfl a rest
theorem iscIzx (d : Byte) : Statement (.iscIzx d) := fun _ _ => rfl
theorem iscZp (d : Byte) : Statement (.iscZp d) := fun _ _ => rfl
theorem iscAbs (a : Addr) : Statement (.iscAbs a) := fun _ rest => of_word rfl a rest
theorem iscIzy (d : Byte) : Statement (.iscIzy d) := fun _ _ => rfl
theorem iscZpx (d : Byte) : Statement (.iscZpx d) := fun _ _ => rfl
theorem iscAby (a : Addr) : Statement (.iscAby a) := fun _ rest => of_word rfl a rest
theorem iscAbx (a : Addr) : Statement (.iscAbx a) := fun _ rest => of_word rfl a rest
theorem nop1A : Statement .nop1A := fun _ _ => rfl
theorem nop3A : Statement .nop3A := fun _ _ => rfl
theorem nop5A : Statement .nop5A := fun _ _ => rfl
theorem nop7A : Statement .nop7A := fun _ _ => rfl
theorem nopDA : Statement .nopDA := fun _ _ => rfl
theorem nopFA : Statement .nopFA := fun _ _ => rfl
theorem sbcImmEB (d : Byte) : Statement (.sbcImmEB d) := fun _ _ => rfl
theorem unassigned (op : Byte) : Statement (.unassigned op) := by
  intro h rest
  have h' : op ∈ unassignedOpcodes := List.contains_iff_mem.mp h
  simp only [unassignedOpcodes, List.mem_append, List.mem_cons, List.not_mem_nil, or_false] at h'
  rcases h' with ((rfl | rfl | rfl | rfl | rfl | rfl | rfl | rfl | rfl | rfl | rfl | rfl) | (rfl | rfl | rfl | rfl | rfl | rfl | rfl)) |
    (rfl | rfl | rfl | rfl | rfl | rfl) <;>
    rfl

end Sys2Proof.Laws.Encoding
end

