-- ==== Sys2Proof/Laws/PpuClock.lean ====
section
/-! SUPPORT. The PPU's position: what a tick does to it, and that a tick's work leaves it and the mask alone. -/

namespace Sys2Proof.Machine

/-- Equal position, parity and mask. -/
def Ppu.SamePlace (p q : Ppu) : Prop :=
  q.cycle = p.cycle ∧ q.scanline = p.scanline ∧ q.oddFrame = p.oddFrame ∧ q.mask = p.mask

theorem Ppu.SamePlace.trans {p q r : Ppu} (h : p.SamePlace q) (h' : q.SamePlace r) : p.SamePlace r :=
  ⟨h'.1.trans h.1, h'.2.1.trans h.2.1, h'.2.2.1.trans h.2.2.1, h'.2.2.2.trans h.2.2.2⟩

theorem Ppu.SamePlace.rfl' {p : Ppu} : p.SamePlace p := ⟨rfl, rfl, rfl, rfl⟩

theorem fetchSlots_ppu (k : Nat) (l : List SecondarySprite) (s : State) : (fetchSlots k l s).2.ppu = s.ppu := by
  induction k generalizing l s with
  | zero => rfl
  | succ k ih =>
    cases l with
    | nil => exact ih _ _
    | cons e rest => exact ih _ _

theorem State.fetchSprites_place (s : State) : s.ppu.SamePlace s.fetchSprites.ppu := by
  have h := fetchSlots_ppu 8 s.ppu.secondary s
  unfold State.fetchSprites
  dsimp only
  rw [h]
  exact .rfl'

theorem Ppu.shiftBackground_place (c : Nat) (p : Ppu) : p.SamePlace (p.shiftBackground c) := by
  unfold Ppu.shiftBackground
  dsimp only
  split <;> split <;> exact .rfl'

theorem State.fetchBackground_place (c : Nat) (s : State) : s.ppu.SamePlace (s.fetchBackground c).ppu := by
  unfold State.fetchBackground
  split
  · split <;> exact .rfl'
  · exact .rfl'

theorem State.lineEndWork_place (c : Nat) (s : State) : s.ppu.SamePlace (s.lineEndWork c).ppu := by
  unfold State.lineEndWork
  split
  · exact .rfl'
  · split
    · exact Ppu.SamePlace.trans .rfl' (State.fetchSprites_place _)
    · exact .rfl'

theorem Ppu.evaluateSprites_place (row : Nat) (p : Ppu) : p.SamePlace (p.evaluateSprites row) := by
  unfold Ppu.evaluateSprites
  dsimp only
  exact .rfl'

theorem State.vblankWork_place (s : State) : s.ppu.SamePlace s.vblankWork.ppu := by
  unfold State.vblankWork
  split
  · exact .rfl'
  · split <;> exact .rfl'

theorem State.preRenderWork_place (s : State) : s.ppu.SamePlace s.preRenderWork.ppu := by
  unfold State.preRenderWork
  dsimp only
  generalize hu : (if s.ppu.cycle = 1 then _ else _) = u
  have h0 : s.ppu.SamePlace u.ppu := by
    subst hu
    split <;> exact .rfl'
  refine h0.trans ?_
  split
  · have h1 : u.ppu.SamePlace (State.lineEndWork s.ppu.cycle
        (State.fetchBackground s.ppu.cycle { u with ppu := u.ppu.shiftBackground s.ppu.cycle })).ppu :=
      ((u.ppu.shiftBackground_place _).trans (State.fetchBackground_place _ _)).trans (State.lineEndWork_place _ _)
    refine h1.trans ?_
    split <;> exact .rfl'
  · exact .rfl'

theorem State.visibleWork_place (row : Nat) (s : State) : s.ppu.SamePlace (s.visibleWork row).ppu := by
  unfold State.visibleWork
  dsimp only
  generalize h1 : (if s.ppu.rendering = true then ({ s with ppu := s.ppu.shiftBackground s.ppu.cycle } : State) else s) = s1
  generalize h2 : (if 1 ≤ s.ppu.cycle ∧ s.ppu.cycle ≤ 256 then _ else s1) = s2
  generalize h3 : (if s.ppu.rendering = true then State.fetchBackground s.ppu.cycle s2 else s2) = s3
  generalize h4 : (if s.ppu.rendering = true ∧ s.ppu.cycle = 64 then _ else s3) = s4
  generalize h5 : (if s.ppu.rendering = true then State.lineEndWork s.ppu.cycle s4 else s4) = s5
  have p1 : s.ppu.SamePlace s1.ppu := by subst h1; split <;> [exact s.ppu.shiftBackground_place _; exact .rfl']
  have p2 : s1.ppu.SamePlace s2.ppu := by subst h2; split <;> exact .rfl'
  have p3 : s2.ppu.SamePlace s3.ppu := by subst h3; split <;> [exact State.fetchBackground_place _ _; exact .rfl']
  have p4 : s3.ppu.SamePlace s4.ppu := by subst h4; split <;> [exact s3.ppu.evaluateSprites_place _; exact .rfl']
  have p5 : s4.ppu.SamePlace s5.ppu := by subst h5; split <;> [exact State.lineEndWork_place _ _; exact .rfl']
  have p6 := (((p1.trans p2).trans p3).trans p4).trans p5
  split <;> exact p6

/-- The work of a cycle leaves the position, the frame parity and the mask alone (61_ppu.md R275). -/
theorem State.ppuWork_place (s : State) : s.ppu.SamePlace s.ppuWork.ppu := by
  unfold State.ppuWork
  dsimp only
  split
  · exact s.vblankWork_place
  · split
    · exact s.preRenderWork_place
    · split
      · exact State.visibleWork_place _ _
      · exact .rfl'

/-- A tick moves to the position `Ppu.advance` gives. -/
theorem State.ppuTick_place (s : State) : (s.ppu.advance s.params.ppuLayout).SamePlace s.ppuTick.ppu := State.ppuWork_place _

end Sys2Proof.Machine
end

