-- ==== Sys2Proof/Laws/Results.lean ====
section
/-! SUPPORT. What each shared operation of the instructions leaves, said once: the value it writes, the flags, the cycles
and the frame. -/

namespace Sys2Proof.Machine

/-- A frame from its parts. -/
theorem Leaves.intro {regs : List CpuReg} {flags : List Nat} {s u t : State} (ha : .a ∈ regs ∨ t.a = s.a)
    (hx : .x ∈ regs ∨ t.x = s.x) (hy : .y ∈ regs ∨ t.y = s.y) (hsp : .sp ∈ regs ∨ t.sp = s.sp)
    (hp : ∀ i, i ∉ flags → t.p.getLsbD i = s.p.getLsbD i) (hpc : t.pc = s.pc) (ho : SameOutside u t) :
    Leaves regs flags s u t :=
  ⟨fun r hr => match r with
    | .a => ha.resolve_left hr
    | .x => hx.resolve_left hr
    | .y => hy.resolve_left hr
    | .sp => hsp.resolve_left hr, hp, hpc, ho⟩

theorem shows_putNZ {v p : Byte} {t : State} (h : t.p = putNZ v p) : ShowsNZ v t := by
  unfold ShowsNZ flagN flagZ
  rw [h, getLsbD_putNZ, getLsbD_putNZ]
  simp

theorem putNZ_other {v p : Byte} {i : Nat} (h : i ∉ [7, 1]) : (putNZ v p).getLsbD i = p.getLsbD i := by
  simp only [List.mem_cons, List.not_mem_nil, or_false, not_or] at h
  rw [getLsbD_putNZ, if_neg h.1, if_neg h.2]

theorem putNZ_putC_other {v p : Byte} {c : Bool} {i : Nat} (h : i ∉ [7, 1, 0]) :
    (putNZ v (putC c p)).getLsbD i = p.getLsbD i := by
  simp only [List.mem_cons, List.not_mem_nil, or_false, not_or] at h
  rw [getLsbD_putNZ, if_neg h.1, if_neg h.2.1, putC, getLsbD_putFlag, if_neg (by omega)]

theorem putAlu_other {r : AluResult} {p : Byte} {i : Nat} (h : i ∉ [7, 6, 1, 0]) :
    (putAlu r p).getLsbD i = p.getLsbD i := by
  simp only [List.mem_cons, List.not_mem_nil, or_false, not_or] at h
  rw [getLsbD_putAlu, if_neg h.1, if_neg h.2.1, if_neg h.2.2.1, if_neg h.2.2.2]

theorem putAlu_putC (r : AluResult) (c : Bool) (p : Byte) : putAlu r (putC c p) = putAlu r p := by
  ext i hi
  rw [← BitVec.getLsbD_eq_getElem, ← BitVec.getLsbD_eq_getElem, getLsbD_putAlu, getLsbD_putAlu, putC, getLsbD_putFlag]
  split <;> [rfl; split] <;> [rfl; split] <;> [rfl; split] <;> [rfl; rw [if_neg (by omega)]]

/-- The carry just put is the carry. -/
theorem flagC_putC (c : Bool) (p : Byte) : flagC (putC c p) = c := by
  simp only [flagC, putC, getLsbD_putFlag]
  simp

theorem flagC_putNZ_putC (v : Byte) (c : Bool) (p : Byte) : flagC (putNZ v (putC c p)) = c := by
  rw [flagC, getLsbD_putNZ, if_neg (by decide), if_neg (by decide)]
  exact flagC_putC c p

theorem flagD_putC (c : Bool) (p : Byte) : flagD (putC c p) = flagD p := by
  simp only [flagD, putC, getLsbD_putFlag]
  simp

/-! ## The states the operations end in -/

theorem State.loadA_eq (o : Source) (base : Nat) (s : State) :
    s.loadA o base = { (o.after s).charge (base + (o.crosses s).toNat) with a := o.value s, p := putNZ (o.value s) s.p } := by
  simp [State.loadA, State.readOperand_value, State.readOperand_state, State.setNZ]

theorem State.loadX_eq (o : Source) (base : Nat) (s : State) :
    s.loadX o base = { (o.after s).charge (base + (o.crosses s).toNat) with x := o.value s, p := putNZ (o.value s) s.p } := by
  simp [State.loadX, State.readOperand_value, State.readOperand_state, State.setNZ]

theorem State.loadY_eq (o : Source) (base : Nat) (s : State) :
    s.loadY o base = { (o.after s).charge (base + (o.crosses s).toNat) with y := o.value s, p := putNZ (o.value s) s.p } := by
  simp [State.loadY, State.readOperand_value, State.readOperand_state, State.setNZ]

theorem State.loadAX_eq (o : MemOperand) (base : Nat) (s : State) :
    s.loadAX o base = { ((Source.mem o).after s).charge (base + ((Source.mem o).crosses s).toNat) with
      a := (Source.mem o).value s, x := (Source.mem o).value s, p := putNZ ((Source.mem o).value s) s.p } := by
  simp [State.loadAX, State.readOperand_value, State.readOperand_state, State.setNZ]

theorem State.logicOperand_eq (op : Byte → Byte → Byte) (o : Source) (base : Nat) (s : State) :
    s.logicOperand op o base = { (o.after s).charge (base + (o.crosses s).toNat) with
      a := op s.a (o.value s), p := putNZ (op s.a (o.value s)) s.p } := by
  simp [State.logicOperand, State.readOperand_value, State.readOperand_state, State.setNZ]

theorem State.compareOperand_eq (r : Byte) (o : Source) (base : Nat) (s : State) :
    s.compareOperand r o base
      = ((o.after s).charge (base + (o.crosses s).toNat)).compare r (o.value s) := by
  simp [State.compareOperand, State.readOperand_value, State.readOperand_state]

theorem State.bitOperand_eq (o : Source) (base : Nat) (s : State) :
    s.bitOperand o base = { (o.after s).charge (base + (o.crosses s).toNat) with
      p := putV ((o.value s).getLsbD 6) (putN ((o.value s).getLsbD 7) (putZ (s.a &&& o.value s == 0#8) s.p)) } := by
  simp [State.bitOperand, State.readOperand_value, State.readOperand_state]

theorem State.adcOperand_eq (o : Source) (base : Nat) (s : State) :
    s.adcOperand o base = ((o.after s).charge (base + (o.crosses s).toNat)).adc (o.value s) := by
  simp [State.adcOperand, State.readOperand_value, State.readOperand_state]

theorem State.sbcOperand_eq (o : Source) (base : Nat) (s : State) :
    s.sbcOperand o base = ((o.after s).charge (base + (o.crosses s).toNat)).sbc (o.value s) := by
  simp [State.sbcOperand, State.readOperand_value, State.readOperand_state]

theorem State.readAndDiscard_eq (o : MemOperand) (base : Nat) (s : State) :
    s.readAndDiscard o base = ((Source.mem o).after s).charge (base + ((Source.mem o).crosses s).toNat) := by
  simp [State.readAndDiscard, State.readOperand_state]

/-- A read-modify-write form's state after its store of `v`, before the operation's second half. -/
def MemForm.afterModify (f : MemForm) (v : Byte) (s : State) : State :=
  (f.modified v s).charge (f.cycles + f.modifyStall v s)

theorem State.modify_eq (f : MemForm) (g : Byte → Byte) (s : State) :
    s.modifyOperand f.operand f.cycles g = (f.value s, f.afterModify (g (f.value s)) s) :=
  Prod.ext rfl (State.modifyOperand_state f.operand f.cycles g s)

@[simp] theorem MemForm.afterModify_a (f : MemForm) (v : Byte) (s : State) : (f.afterModify v s).a = s.a := by
  simp [MemForm.afterModify, MemForm.modified]
@[simp] theorem MemForm.afterModify_x (f : MemForm) (v : Byte) (s : State) : (f.afterModify v s).x = s.x := by
  simp [MemForm.afterModify, MemForm.modified]
@[simp] theorem MemForm.afterModify_y (f : MemForm) (v : Byte) (s : State) : (f.afterModify v s).y = s.y := by
  simp [MemForm.afterModify, MemForm.modified]
@[simp] theorem MemForm.afterModify_sp (f : MemForm) (v : Byte) (s : State) : (f.afterModify v s).sp = s.sp := by
  simp [MemForm.afterModify, MemForm.modified]
@[simp] theorem MemForm.afterModify_p (f : MemForm) (v : Byte) (s : State) : (f.afterModify v s).p = s.p := by
  simp [MemForm.afterModify, MemForm.modified]
@[simp] theorem MemForm.afterModify_pc (f : MemForm) (v : Byte) (s : State) : (f.afterModify v s).pc = s.pc := by
  simp [MemForm.afterModify, MemForm.modified]
@[simp] theorem MemForm.afterModify_params (f : MemForm) (v : Byte) (s : State) :
    (f.afterModify v s).params = s.params := by
  simp [MemForm.afterModify, MemForm.modified]
@[simp] theorem MemForm.afterModify_cyc (f : MemForm) (v : Byte) (s : State) :
    (f.afterModify v s).cyc = s.cyc + f.cycles + f.modifyStall v s := by
  simp [MemForm.afterModify, MemForm.modified, State.charge, Nat.add_assoc]

/-- A change of registers, P, PC and the cycle count keeps what lies outside the CPU. -/
theorem SameOutside.of_charge {u t : State} (n : Nat) (h : SameOutside (u.charge n) t) : SameOutside u t := h

theorem MemForm.afterModify_outside (f : MemForm) (v : Byte) {s t : State} (h : SameOutside (f.afterModify v s) t) :
    SameOutside (f.modified v s) t := h

/-- `Adc` in a state with the A, the parameters and, but for C, the flags of `s` (42_arithmetic.md R132). -/
theorem State.adc_added {s u : State} {c : Bool} (m : Byte) (ha : u.a = s.a) (hq : u.params = s.params)
    (hp : u.p = putC c s.p) : s.Added c m (u.adc m) ∧ ∀ i, i ∉ [7, 6, 1, 0] → (u.adc m).p.getLsbD i = s.p.getLsbD i := by
  have hc : flagC u.p = c := by rw [hp, flagC_putC]
  have hd : flagD u.p = flagD s.p := by rw [hp, flagD_putC]
  have ep : (u.adc m).p = putAlu (if s.params.decimalEnable && flagD s.p then decimalSum s.params s.a m c
      else addBinary s.a m c) s.p := by
    simp only [State.adc, ha, hq, hc, hd]
    rw [hp, putAlu_putC]
  have ea : (u.adc m).a = (if s.params.decimalEnable && flagD s.p then decimalSum s.params s.a m c
      else addBinary s.a m c).value := by
    simp only [State.adc, ha, hq, hc, hd]
  refine ⟨⟨fun hb => ?_, fun hb => ?_⟩, fun i hi => by rw [ep, putAlu_other hi]⟩
  · have hb' : (s.params.decimalEnable && flagD s.p) = false := by
      rcases hb with hb | hb <;> simp [hb]
    rw [hb', if_neg (by decide)] at ep ea
    refine ⟨by rw [ea, ep]; exact addBinary_spec _ _ _ _, ?_⟩
    unfold ShowsNZ
    rw [ea, ep]
    exact addBinary_shows _ _ _ _
  · have hb' : (s.params.decimalEnable && flagD s.p) = true := by
      unfold State.InBinary at hb
      simpa using hb
    rw [hb', if_pos rfl] at ep ea
    refine ⟨ea, ?_, ?_, ?_, ?_⟩ <;> simp only [flagC, flagV, flagN, flagZ, ep, getLsbD_putAlu] <;> simp

/-- `Sbc` in a state with the A, the parameters and the flags of `s` (42_arithmetic.md R133). -/
theorem State.sbc_subtracted {s u : State} (m : Byte) (ha : u.a = s.a) (hq : u.params = s.params) (hp : u.p = s.p) :
    s.Subtracted (flagC s.p) m (u.sbc m) ∧ ∀ i, i ∉ [7, 6, 1, 0] → (u.sbc m).p.getLsbD i = s.p.getLsbD i := by
  have ep : (u.sbc m).p = putAlu (if s.params.decimalEnable && flagD s.p then decimalDifference s.params s.a m (flagC s.p)
      else addBinary s.a (m ^^^ 0xFF#8) (flagC s.p)) s.p := by
    simp only [State.sbc, ha, hq, hp]
  have ea : (u.sbc m).a = (if s.params.decimalEnable && flagD s.p then decimalDifference s.params s.a m (flagC s.p)
      else addBinary s.a (m ^^^ 0xFF#8) (flagC s.p)).value := by
    simp only [State.sbc, ha, hq, hp]
  refine ⟨⟨fun hb => ?_, fun hb => ?_⟩, fun i hi => by rw [ep, putAlu_other hi]⟩
  · have hb' : (s.params.decimalEnable && flagD s.p) = false := by
      rcases hb with hb | hb <;> simp [hb]
    rw [hb', if_neg (by decide)] at ep ea
    refine ⟨by rw [ea, ep]; exact subBinary_spec _ _ _ _, ?_⟩
    unfold ShowsNZ
    rw [ea, ep]
    exact addBinary_shows _ _ _ _
  · have hb' : (s.params.decimalEnable && flagD s.p) = true := by
      unfold State.InBinary at hb
      simpa using hb
    rw [hb', if_pos rfl] at ep ea
    refine ⟨ea, ?_, ?_, ?_, ?_⟩ <;> simp only [flagC, flagV, flagN, flagZ, ep, getLsbD_putAlu] <;> simp

end Sys2Proof.Machine
end

