-- ==== Sys2Proof/Tests/Slice0.lean ====
section
/-! SUPPORT. Tests: what the well-formedness check refuses, the decoding of every opcode byte, one step of the
instructions and single operations of the devices on the spec's own vectors (95_test_vectors.md), and a witness for the
hypotheses of each obligation. Every expected value is the spec's. -/

namespace Sys2Proof.Tests

open Sys2Proof.Machine

/-! ## Helpers -/

/-- The CPU's registers, in the order A, X, Y, S, P, PC. -/
structure Regs where
  a : Byte
  x : Byte
  y : Byte
  sp : Byte
  p : Byte
  pc : Addr
  deriving DecidableEq, Repr

/-- The machine of 95_test_vectors.md Part B: after a Reset service, with the given registers and bytes of memory. -/
def machine (r : Regs) (mem : List (Addr × Byte)) : State :=
  mem.foldl (fun s m => s.place m.1 m.2)
    { State.reset with pending := none, a := r.a, x := r.x, y := r.y, sp := r.sp, p := r.p, pc := r.pc }

/-- One `ExecuteOp` of `code` at PC gives the registers, the bytes of memory and the cycles of a vector. -/
def vector (start : Regs) (code : List Byte) (mem : List (Addr × Byte)) (finish : Regs) (after : List (Addr × Byte))
    (cycles : Nat) : Bool :=
  match (State.placeBytes start.pc code (machine start mem)).executeOp with
  | .next t =>
    decide (Regs.mk t.a t.x t.y t.sp t.p t.pc = finish) && t.cyc == cycles && after.all fun m => t.peek m.1 == m.2
  | .fault _ | .refused _ => false

/-- The machine after a Reset service, before any access of its devices. -/
def quiet : State := { State.reset with pending := none }

/-- Writes of the CPU, in order. -/
def writes (l : List (Addr × Byte)) (s : State) : State := l.foldl (fun s m => (s.memWrite m.1 m.2).1) s

/-! ## Well-formedness -/

theorem test_wf_refuses_an_assigned_byte : (Instr.unassigned 0xA9#8).wf = false := by decide

theorem test_wf_takes_an_unassigned_byte : (Instr.unassigned 0x02#8).wf = true := by decide

theorem test_unassigned_bytes_are_25 : unassignedOpcodes.length = 25 ∧ unassignedOpcodes.Nodup := by decide

/-! ## Decoding: every opcode byte, the rows of 30_encoding.md R85 written out from spec/opcode_table.json, with operand
bytes 34 and 12 where the mode calls for them -/

theorem test_decode_row0 :
    decode [0x00#8] = .ok (.brk, [])
      ∧ decode [0x01#8, 0x34#8] = .ok (.oraIzx 0x34#8, [])
      ∧ decode [0x02#8] = .ok (.unassigned 0x02#8, [])
      ∧ decode [0x03#8, 0x34#8] = .ok (.sloIzx 0x34#8, [])
      ∧ decode [0x04#8, 0x34#8] = .ok (.dopZp04 0x34#8, [])
      ∧ decode [0x05#8, 0x34#8] = .ok (.oraZp 0x34#8, [])
      ∧ decode [0x06#8, 0x34#8] = .ok (.aslZp 0x34#8, [])
      ∧ decode [0x07#8, 0x34#8] = .ok (.sloZp 0x34#8, [])
      ∧ decode [0x08#8] = .ok (.php, [])
      ∧ decode [0x09#8, 0x34#8] = .ok (.oraImm 0x34#8, [])
      ∧ decode [0x0A#8] = .ok (.aslAcc, [])
      ∧ decode [0x0B#8] = .ok (.unassigned 0x0B#8, [])
      ∧ decode [0x0C#8, 0x34#8, 0x12#8] = .ok (.topAbs 0x1234#16, [])
      ∧ decode [0x0D#8, 0x34#8, 0x12#8] = .ok (.oraAbs 0x1234#16, [])
      ∧ decode [0x0E#8, 0x34#8, 0x12#8] = .ok (.aslAbs 0x1234#16, [])
      ∧ decode [0x0F#8, 0x34#8, 0x12#8] = .ok (.sloAbs 0x1234#16, []) := by
  and_intros <;> rfl

theorem test_decode_row1 :
    decode [0x10#8, 0x34#8] = .ok (.bpl 0x34#8, [])
      ∧ decode [0x11#8, 0x34#8] = .ok (.oraIzy 0x34#8, [])
      ∧ decode [0x12#8] = .ok (.unassigned 0x12#8, [])
      ∧ decode [0x13#8, 0x34#8] = .ok (.sloIzy 0x34#8, [])
      ∧ decode [0x14#8, 0x34#8] = .ok (.dopZpx14 0x34#8, [])
      ∧ decode [0x15#8, 0x34#8] = .ok (.oraZpx 0x34#8, [])
      ∧ decode [0x16#8, 0x34#8] = .ok (.aslZpx 0x34#8, [])
      ∧ decode [0x17#8, 0x34#8] = .ok (.sloZpx 0x34#8, [])
      ∧ decode [0x18#8] = .ok (.clc, [])
      ∧ decode [0x19#8, 0x34#8, 0x12#8] = .ok (.oraAby 0x1234#16, [])
      ∧ decode [0x1A#8] = .ok (.nop1A, [])
      ∧ decode [0x1B#8, 0x34#8, 0x12#8] = .ok (.sloAby 0x1234#16, [])
      ∧ decode [0x1C#8, 0x34#8, 0x12#8] = .ok (.topAbx1C 0x1234#16, [])
      ∧ decode [0x1D#8, 0x34#8, 0x12#8] = .ok (.oraAbx 0x1234#16, [])
      ∧ decode [0x1E#8, 0x34#8, 0x12#8] = .ok (.aslAbx 0x1234#16, [])
      ∧ decode [0x1F#8, 0x34#8, 0x12#8] = .ok (.sloAbx 0x1234#16, []) := by
  and_intros <;> rfl

theorem test_decode_row2 :
    decode [0x20#8, 0x34#8, 0x12#8] = .ok (.jsr 0x1234#16, [])
      ∧ decode [0x21#8, 0x34#8] = .ok (.andIzx 0x34#8, [])
      ∧ decode [0x22#8] = .ok (.unassigned 0x22#8, [])
      ∧ decode [0x23#8, 0x34#8] = .ok (.rlaIzx 0x34#8, [])
      ∧ decode [0x24#8, 0x34#8] = .ok (.bitZp 0x34#8, [])
      ∧ decode [0x25#8, 0x34#8] = .ok (.andZp 0x34#8, [])
      ∧ decode [0x26#8, 0x34#8] = .ok (.rolZp 0x34#8, [])
      ∧ decode [0x27#8, 0x34#8] = .ok (.rlaZp 0x34#8, [])
      ∧ decode [0x28#8] = .ok (.plp, [])
      ∧ decode [0x29#8, 0x34#8] = .ok (.andImm 0x34#8, [])
      ∧ decode [0x2A#8] = .ok (.rolAcc, [])
      ∧ decode [0x2B#8] = .ok (.unassigned 0x2B#8, [])
      ∧ decode [0x2C#8, 0x34#8, 0x12#8] = .ok (.bitAbs 0x1234#16, [])
      ∧ decode [0x2D#8, 0x34#8, 0x12#8] = .ok (.andAbs 0x1234#16, [])
      ∧ decode [0x2E#8, 0x34#8, 0x12#8] = .ok (.rolAbs 0x1234#16, [])
      ∧ decode [0x2F#8, 0x34#8, 0x12#8] = .ok (.rlaAbs 0x1234#16, []) := by
  and_intros <;> rfl

theorem test_decode_row3 :
    decode [0x30#8, 0x34#8] = .ok (.bmi 0x34#8, [])
      ∧ decode [0x31#8, 0x34#8] = .ok (.andIzy 0x34#8, [])
      ∧ decode [0x32#8] = .ok (.unassigned 0x32#8, [])
      ∧ decode [0x33#8, 0x34#8] = .ok (.rlaIzy 0x34#8, [])
      ∧ decode [0x34#8, 0x34#8] = .ok (.dopZpx34 0x34#8, [])
      ∧ decode [0x35#8, 0x34#8] = .ok (.andZpx 0x34#8, [])
      ∧ decode [0x36#8, 0x34#8] = .ok (.rolZpx 0x34#8, [])
      ∧ decode [0x37#8, 0x34#8] = .ok (.rlaZpx 0x34#8, [])
      ∧ decode [0x38#8] = .ok (.sec, [])
      ∧ decode [0x39#8, 0x34#8, 0x12#8] = .ok (.andAby 0x1234#16, [])
      ∧ decode [0x3A#8] = .ok (.nop3A, [])
      ∧ decode [0x3B#8, 0x34#8, 0x12#8] = .ok (.rlaAby 0x1234#16, [])
      ∧ decode [0x3C#8, 0x34#8, 0x12#8] = .ok (.topAbx3C 0x1234#16, [])
      ∧ decode [0x3D#8, 0x34#8, 0x12#8] = .ok (.andAbx 0x1234#16, [])
      ∧ decode [0x3E#8, 0x34#8, 0x12#8] = .ok (.rolAbx 0x1234#16, [])
      ∧ decode [0x3F#8, 0x34#8, 0x12#8] = .ok (.rlaAbx 0x1234#16, []) := by
  and_intros <;> rfl

theorem test_decode_row4 :
    decode [0x40#8] = .ok (.rti, [])
      ∧ decode [0x41#8, 0x34#8] = .ok (.eorIzx 0x34#8, [])
      ∧ decode [0x42#8] = .ok (.unassigned 0x42#8, [])
      ∧ decode [0x43#8, 0x34#8] = .ok (.sreIzx 0x34#8, [])
      ∧ decode [0x44#8, 0x34#8] = .ok (.dopZp44 0x34#8, [])
      ∧ decode [0x45#8, 0x34#8] = .ok (.eorZp 0x34#8, [])
      ∧ decode [0x46#8, 0x34#8] = .ok (.lsrZp 0x34#8, [])
      ∧ decode [0x47#8, 0x34#8] = .ok (.sreZp 0x34#8, [])
      ∧ decode [0x48#8] = .ok (.pha, [])
      ∧ decode [0x49#8, 0x34#8] = .ok (.eorImm 0x34#8, [])
      ∧ decode [0x4A#8] = .ok (.lsrAcc, [])
      ∧ decode [0x4B#8] = .ok (.unassigned 0x4B#8, [])
      ∧ decode [0x4C#8, 0x34#8, 0x12#8] = .ok (.jmpAbs 0x1234#16, [])
      ∧ decode [0x4D#8, 0x34#8, 0x12#8] = .ok (.eorAbs 0x1234#16, [])
      ∧ decode [0x4E#8, 0x34#8, 0x12#8] = .ok (.lsrAbs 0x1234#16, [])
      ∧ decode [0x4F#8, 0x34#8, 0x12#8] = .ok (.sreAbs 0x1234#16, []) := by
  and_intros <;> rfl

theorem test_decode_row5 :
    decode [0x50#8, 0x34#8] = .ok (.bvc 0x34#8, [])
      ∧ decode [0x51#8, 0x34#8] = .ok (.eorIzy 0x34#8, [])
      ∧ decode [0x52#8] = .ok (.unassigned 0x52#8, [])
      ∧ decode [0x53#8, 0x34#8] = .ok (.sreIzy 0x34#8, [])
      ∧ decode [0x54#8, 0x34#8] = .ok (.dopZpx54 0x34#8, [])
      ∧ decode [0x55#8, 0x34#8] = .ok (.eorZpx 0x34#8, [])
      ∧ decode [0x56#8, 0x34#8] = .ok (.lsrZpx 0x34#8, [])
      ∧ decode [0x57#8, 0x34#8] = .ok (.sreZpx 0x34#8, [])
      ∧ decode [0x58#8] = .ok (.cli, [])
      ∧ decode [0x59#8, 0x34#8, 0x12#8] = .ok (.eorAby 0x1234#16, [])
      ∧ decode [0x5A#8] = .ok (.nop5A, [])
      ∧ decode [0x5B#8, 0x34#8, 0x12#8] = .ok (.sreAby 0x1234#16, [])
      ∧ decode [0x5C#8, 0x34#8, 0x12#8] = .ok (.topAbx5C 0x1234#16, [])
      ∧ decode [0x5D#8, 0x34#8, 0x12#8] = .ok (.eorAbx 0x1234#16, [])
      ∧ decode [0x5E#8, 0x34#8, 0x12#8] = .ok (.lsrAbx 0x1234#16, [])
      ∧ decode [0x5F#8, 0x34#8, 0x12#8] = .ok (.sreAbx 0x1234#16, []) := by
  and_intros <;> rfl

theorem test_decode_row6 :
    decode [0x60#8] = .ok (.rts, [])
      ∧ decode [0x61#8, 0x34#8] = .ok (.adcIzx 0x34#8, [])
      ∧ decode [0x62#8] = .ok (.unassigned 0x62#8, [])
      ∧ decode [0x63#8, 0x34#8] = .ok (.rraIzx 0x34#8, [])
      ∧ decode [0x64#8, 0x34#8] = .ok (.dopZp64 0x34#8, [])
      ∧ decode [0x65#8, 0x34#8] = .ok (.adcZp 0x34#8, [])
      ∧ decode [0x66#8, 0x34#8] = .ok (.rorZp 0x34#8, [])
      ∧ decode [0x67#8, 0x34#8] = .ok (.rraZp 0x34#8, [])
      ∧ decode [0x68#8] = .ok (.pla, [])
      ∧ decode [0x69#8, 0x34#8] = .ok (.adcImm 0x34#8, [])
      ∧ decode [0x6A#8] = .ok (.rorAcc, [])
      ∧ decode [0x6B#8] = .ok (.unassigned 0x6B#8, [])
      ∧ decode [0x6C#8, 0x34#8, 0x12#8] = .ok (.jmpInd 0x1234#16, [])
      ∧ decode [0x6D#8, 0x34#8, 0x12#8] = .ok (.adcAbs 0x1234#16, [])
      ∧ decode [0x6E#8, 0x34#8, 0x12#8] = .ok (.rorAbs 0x1234#16, [])
      ∧ decode [0x6F#8, 0x34#8, 0x12#8] = .ok (.rraAbs 0x1234#16, []) := by
  and_intros <;> rfl

theorem test_decode_row7 :
    decode [0x70#8, 0x34#8] = .ok (.bvs 0x34#8, [])
      ∧ decode [0x71#8, 0x34#8] = .ok (.adcIzy 0x34#8, [])
      ∧ decode [0x72#8] = .ok (.unassigned 0x72#8, [])
      ∧ decode [0x73#8, 0x34#8] = .ok (.rraIzy 0x34#8, [])
      ∧ decode [0x74#8, 0x34#8] = .ok (.dopZpx74 0x34#8, [])
      ∧ decode [0x75#8, 0x34#8] = .ok (.adcZpx 0x34#8, [])
      ∧ decode [0x76#8, 0x34#8] = .ok (.rorZpx 0x34#8, [])
      ∧ decode [0x77#8, 0x34#8] = .ok (.rraZpx 0x34#8, [])
      ∧ decode [0x78#8] = .ok (.sei, [])
      ∧ decode [0x79#8, 0x34#8, 0x12#8] = .ok (.adcAby 0x1234#16, [])
      ∧ decode [0x7A#8] = .ok (.nop7A, [])
      ∧ decode [0x7B#8, 0x34#8, 0x12#8] = .ok (.rraAby 0x1234#16, [])
      ∧ decode [0x7C#8, 0x34#8, 0x12#8] = .ok (.topAbx7C 0x1234#16, [])
      ∧ decode [0x7D#8, 0x34#8, 0x12#8] = .ok (.adcAbx 0x1234#16, [])
      ∧ decode [0x7E#8, 0x34#8, 0x12#8] = .ok (.rorAbx 0x1234#16, [])
      ∧ decode [0x7F#8, 0x34#8, 0x12#8] = .ok (.rraAbx 0x1234#16, []) := by
  and_intros <;> rfl

theorem test_decode_row8 :
    decode [0x80#8, 0x34#8] = .ok (.dopImm80 0x34#8, [])
      ∧ decode [0x81#8, 0x34#8] = .ok (.staIzx 0x34#8, [])
      ∧ decode [0x82#8, 0x34#8] = .ok (.dopImm82 0x34#8, [])
      ∧ decode [0x83#8, 0x34#8] = .ok (.aaxIzx 0x34#8, [])
      ∧ decode [0x84#8, 0x34#8] = .ok (.styZp 0x34#8, [])
      ∧ decode [0x85#8, 0x34#8] = .ok (.staZp 0x34#8, [])
      ∧ decode [0x86#8, 0x34#8] = .ok (.stxZp 0x34#8, [])
      ∧ decode [0x87#8, 0x34#8] = .ok (.aaxZp 0x34#8, [])
      ∧ decode [0x88#8] = .ok (.dey, [])
      ∧ decode [0x89#8, 0x34#8] = .ok (.dopImm89 0x34#8, [])
      ∧ decode [0x8A#8] = .ok (.txa, [])
      ∧ decode [0x8B#8] = .ok (.unassigned 0x8B#8, [])
      ∧ decode [0x8C#8, 0x34#8, 0x12#8] = .ok (.styAbs 0x1234#16, [])
      ∧ decode [0x8D#8, 0x34#8, 0x12#8] = .ok (.staAbs 0x1234#16, [])
      ∧ decode [0x8E#8, 0x34#8, 0x12#8] = .ok (.stxAbs 0x1234#16, [])
      ∧ decode [0x8F#8, 0x34#8, 0x12#8] = .ok (.aaxAbs 0x1234#16, []) := by
  and_intros <;> rfl

theorem test_decode_row9 :
    decode [0x90#8, 0x34#8] = .ok (.bcc 0x34#8, [])
      ∧ decode [0x91#8, 0x34#8] = .ok (.staIzy 0x34#8, [])
      ∧ decode [0x92#8] = .ok (.unassigned 0x92#8, [])
      ∧ decode [0x93#8] = .ok (.unassigned 0x93#8, [])
      ∧ decode [0x94#8, 0x34#8] = .ok (.styZpx 0x34#8, [])
      ∧ decode [0x95#8, 0x34#8] = .ok (.staZpx 0x34#8, [])
      ∧ decode [0x96#8, 0x34#8] = .ok (.stxZpy 0x34#8, [])
      ∧ decode [0x97#8, 0x34#8] = .ok (.aaxZpy 0x34#8, [])
      ∧ decode [0x98#8] = .ok (.tya, [])
      ∧ decode [0x99#8, 0x34#8, 0x12#8] = .ok (.staAby 0x1234#16, [])
      ∧ decode [0x9A#8] = .ok (.txs, [])
      ∧ decode [0x9B#8] = .ok (.unassigned 0x9B#8, [])
      ∧ decode [0x9C#8] = .ok (.unassigned 0x9C#8, [])
      ∧ decode [0x9D#8, 0x34#8, 0x12#8] = .ok (.staAbx 0x1234#16, [])
      ∧ decode [0x9E#8] = .ok (.unassigned 0x9E#8, [])
      ∧ decode [0x9F#8] = .ok (.unassigned 0x9F#8, []) := by
  and_intros <;> rfl

theorem test_decode_rowA :
    decode [0xA0#8, 0x34#8] = .ok (.ldyImm 0x34#8, [])
      ∧ decode [0xA1#8, 0x34#8] = .ok (.ldaIzx 0x34#8, [])
      ∧ decode [0xA2#8, 0x34#8] = .ok (.ldxImm 0x34#8, [])
      ∧ decode [0xA3#8, 0x34#8] = .ok (.laxIzx 0x34#8, [])
      ∧ decode [0xA4#8, 0x34#8] = .ok (.ldyZp 0x34#8, [])
      ∧ decode [0xA5#8, 0x34#8] = .ok (.ldaZp 0x34#8, [])
      ∧ decode [0xA6#8, 0x34#8] = .ok (.ldxZp 0x34#8, [])
      ∧ decode [0xA7#8, 0x34#8] = .ok (.laxZp 0x34#8, [])
      ∧ decode [0xA8#8] = .ok (.tay, [])
      ∧ decode [0xA9#8, 0x34#8] = .ok (.ldaImm 0x34#8, [])
      ∧ decode [0xAA#8] = .ok (.tax, [])
      ∧ decode [0xAB#8] = .ok (.unassigned 0xAB#8, [])
      ∧ decode [0xAC#8, 0x34#8, 0x12#8] = .ok (.ldyAbs 0x1234#16, [])
      ∧ decode [0xAD#8, 0x34#8, 0x12#8] = .ok (.ldaAbs 0x1234#16, [])
      ∧ decode [0xAE#8, 0x34#8, 0x12#8] = .ok (.ldxAbs 0x1234#16, [])
      ∧ decode [0xAF#8, 0x34#8, 0x12#8] = .ok (.laxAbs 0x1234#16, []) := by
  and_intros <;> rfl

theorem test_decode_rowB :
    decode [0xB0#8, 0x34#8] = .ok (.bcs 0x34#8, [])
      ∧ decode [0xB1#8, 0x34#8] = .ok (.ldaIzy 0x34#8, [])
      ∧ decode [0xB2#8] = .ok (.unassigned 0xB2#8, [])
      ∧ decode [0xB3#8, 0x34#8] = .ok (.laxIzy 0x34#8, [])
      ∧ decode [0xB4#8, 0x34#8] = .ok (.ldyZpx 0x34#8, [])
      ∧ decode [0xB5#8, 0x34#8] = .ok (.ldaZpx 0x34#8, [])
      ∧ decode [0xB6#8, 0x34#8] = .ok (.ldxZpy 0x34#8, [])
      ∧ decode [0xB7#8, 0x34#8] = .ok (.laxZpy 0x34#8, [])
      ∧ decode [0xB8#8] = .ok (.clv, [])
      ∧ decode [0xB9#8, 0x34#8, 0x12#8] = .ok (.ldaAby 0x1234#16, [])
      ∧ decode [0xBA#8] = .ok (.tsx, [])
      ∧ decode [0xBB#8] = .ok (.unassigned 0xBB#8, [])
      ∧ decode [0xBC#8, 0x34#8, 0x12#8] = .ok (.ldyAbx 0x1234#16, [])
      ∧ decode [0xBD#8, 0x34#8, 0x12#8] = .ok (.ldaAbx 0x1234#16, [])
      ∧ decode [0xBE#8, 0x34#8, 0x12#8] = .ok (.ldxAby 0x1234#16, [])
      ∧ decode [0xBF#8, 0x34#8, 0x12#8] = .ok (.laxAby 0x1234#16, []) := by
  and_intros <;> rfl

theorem test_decode_rowC :
    decode [0xC0#8, 0x34#8] = .ok (.cpyImm 0x34#8, [])
      ∧ decode [0xC1#8, 0x34#8] = .ok (.cmpIzx 0x34#8, [])
      ∧ decode [0xC2#8, 0x34#8] = .ok (.dopImmC2 0x34#8, [])
      ∧ decode [0xC3#8, 0x34#8] = .ok (.dcpIzx 0x34#8, [])
      ∧ decode [0xC4#8, 0x34#8] = .ok (.cpyZp 0x34#8, [])
      ∧ decode [0xC5#8, 0x34#8] = .ok (.cmpZp 0x34#8, [])
      ∧ decode [0xC6#8, 0x34#8] = .ok (.decZp 0x34#8, [])
      ∧ decode [0xC7#8, 0x34#8] = .ok (.dcpZp 0x34#8, [])
      ∧ decode [0xC8#8] = .ok (.iny, [])
      ∧ decode [0xC9#8, 0x34#8] = .ok (.cmpImm 0x34#8, [])
      ∧ decode [0xCA#8] = .ok (.dex, [])
      ∧ decode [0xCB#8] = .ok (.unassigned 0xCB#8, [])
      ∧ decode [0xCC#8, 0x34#8, 0x12#8] = .ok (.cpyAbs 0x1234#16, [])
      ∧ decode [0xCD#8, 0x34#8, 0x12#8] = .ok (.cmpAbs 0x1234#16, [])
      ∧ decode [0xCE#8, 0x34#8, 0x12#8] = .ok (.decAbs 0x1234#16, [])
      ∧ decode [0xCF#8, 0x34#8, 0x12#8] = .ok (.dcpAbs 0x1234#16, []) := by
  and_intros <;> rfl

theorem test_decode_rowD :
    decode [0xD0#8, 0x34#8] = .ok (.bne 0x34#8, [])
      ∧ decode [0xD1#8, 0x34#8] = .ok (.cmpIzy 0x34#8, [])
      ∧ decode [0xD2#8] = .ok (.unassigned 0xD2#8, [])
      ∧ decode [0xD3#8, 0x34#8] = .ok (.dcpIzy 0x34#8, [])
      ∧ decode [0xD4#8, 0x34#8] = .ok (.dopZpxD4 0x34#8, [])
      ∧ decode [0xD5#8, 0x34#8] = .ok (.cmpZpx 0x34#8, [])
      ∧ decode [0xD6#8, 0x34#8] = .ok (.decZpx 0x34#8, [])
      ∧ decode [0xD7#8, 0x34#8] = .ok (.dcpZpx 0x34#8, [])
      ∧ decode [0xD8#8] = .ok (.cld, [])
      ∧ decode [0xD9#8, 0x34#8, 0x12#8] = .ok (.cmpAby 0x1234#16, [])
      ∧ decode [0xDA#8] = .ok (.nopDA, [])
      ∧ decode [0xDB#8, 0x34#8, 0x12#8] = .ok (.dcpAby 0x1234#16, [])
      ∧ decode [0xDC#8, 0x34#8, 0x12#8] = .ok (.topAbxDC 0x1234#16, [])
      ∧ decode [0xDD#8, 0x34#8, 0x12#8] = .ok (.cmpAbx 0x1234#16, [])
      ∧ decode [0xDE#8, 0x34#8, 0x12#8] = .ok (.decAbx 0x1234#16, [])
      ∧ decode [0xDF#8, 0x34#8, 0x12#8] = .ok (.dcpAbx 0x1234#16, []) := by
  and_intros <;> rfl

theorem test_decode_rowE :
    decode [0xE0#8, 0x34#8] = .ok (.cpxImm 0x34#8, [])
      ∧ decode [0xE1#8, 0x34#8] = .ok (.sbcIzx 0x34#8, [])
      ∧ decode [0xE2#8, 0x34#8] = .ok (.dopImmE2 0x34#8, [])
      ∧ decode [0xE3#8, 0x34#8] = .ok (.iscIzx 0x34#8, [])
      ∧ decode [0xE4#8, 0x34#8] = .ok (.cpxZp 0x34#8, [])
      ∧ decode [0xE5#8, 0x34#8] = .ok (.sbcZp 0x34#8, [])
      ∧ decode [0xE6#8, 0x34#8] = .ok (.incZp 0x34#8, [])
      ∧ decode [0xE7#8, 0x34#8] = .ok (.iscZp 0x34#8, [])
      ∧ decode [0xE8#8] = .ok (.inx, [])
      ∧ decode [0xE9#8, 0x34#8] = .ok (.sbcImm 0x34#8, [])
      ∧ decode [0xEA#8] = .ok (.nop, [])
      ∧ decode [0xEB#8, 0x34#8] = .ok (.sbcImmEB 0x34#8, [])
      ∧ decode [0xEC#8, 0x34#8, 0x12#8] = .ok (.cpxAbs 0x1234#16, [])
      ∧ decode [0xED#8, 0x34#8, 0x12#8] = .ok (.sbcAbs 0x1234#16, [])
      ∧ decode [0xEE#8, 0x34#8, 0x12#8] = .ok (.incAbs 0x1234#16, [])
      ∧ decode [0xEF#8, 0x34#8, 0x12#8] = .ok (.iscAbs 0x1234#16, []) := by
  and_intros <;> rfl

theorem test_decode_rowF :
    decode [0xF0#8, 0x34#8] = .ok (.beq 0x34#8, [])
      ∧ decode [0xF1#8, 0x34#8] = .ok (.sbcIzy 0x34#8, [])
      ∧ decode [0xF2#8] = .ok (.unassigned 0xF2#8, [])
      ∧ decode [0xF3#8, 0x34#8] = .ok (.iscIzy 0x34#8, [])
      ∧ decode [0xF4#8, 0x34#8] = .ok (.dopZpxF4 0x34#8, [])
      ∧ decode [0xF5#8, 0x34#8] = .ok (.sbcZpx 0x34#8, [])
      ∧ decode [0xF6#8, 0x34#8] = .ok (.incZpx 0x34#8, [])
      ∧ decode [0xF7#8, 0x34#8] = .ok (.iscZpx 0x34#8, [])
      ∧ decode [0xF8#8] = .ok (.sed, [])
      ∧ decode [0xF9#8, 0x34#8, 0x12#8] = .ok (.sbcAby 0x1234#16, [])
      ∧ decode [0xFA#8] = .ok (.nopFA, [])
      ∧ decode [0xFB#8, 0x34#8, 0x12#8] = .ok (.iscAby 0x1234#16, [])
      ∧ decode [0xFC#8, 0x34#8, 0x12#8] = .ok (.topAbxFC 0x1234#16, [])
      ∧ decode [0xFD#8, 0x34#8, 0x12#8] = .ok (.sbcAbx 0x1234#16, [])
      ∧ decode [0xFE#8, 0x34#8, 0x12#8] = .ok (.incAbx 0x1234#16, [])
      ∧ decode [0xFF#8, 0x34#8, 0x12#8] = .ok (.iscAbx 0x1234#16, []) := by
  and_intros <;> rfl

/-! ## One step of each instruction: vectors of 95_test_vectors.md, Part B, by their numbers -/

theorem test_ldaImm_V101 :
    vector ⟨0x55#8, 0x00#8, 0x00#8, 0xFD#8, 0x24#8, 0x8000#16⟩ [0xA9#8, 0x00#8] []
      ⟨0x00#8, 0x00#8, 0x00#8, 0xFD#8, 0x26#8, 0x8002#16⟩ [] 2 = true := by decide

theorem test_ldaZp_V102 :
    vector ⟨0x00#8, 0x00#8, 0x00#8, 0xFD#8, 0x24#8, 0x8000#16⟩ [0xA5#8, 0x10#8] [(0x0010#16, 0x80#8)]
      ⟨0x80#8, 0x00#8, 0x00#8, 0xFD#8, 0xA4#8, 0x8002#16⟩ [] 3 = true := by decide

theorem test_ldaZpx_V103 :
    vector ⟨0x00#8, 0x20#8, 0x00#8, 0xFD#8, 0x24#8, 0x8000#16⟩ [0xB5#8, 0xF0#8] [(0x0010#16, 0x42#8), (0x0110#16, 0x99#8)]
      ⟨0x42#8, 0x20#8, 0x00#8, 0xFD#8, 0x24#8, 0x8002#16⟩ [] 4 = true := by decide

theorem test_ldxZpy_V104 :
    vector ⟨0x00#8, 0x00#8, 0x02#8, 0xFD#8, 0x24#8, 0x8000#16⟩ [0xB6#8, 0xFF#8] [(0x0001#16, 0x33#8), (0x0101#16, 0x99#8)]
      ⟨0x00#8, 0x33#8, 0x02#8, 0xFD#8, 0x24#8, 0x8002#16⟩ [] 4 = true := by decide

theorem test_ldaAbs_V105 :
    vector ⟨0x00#8, 0x00#8, 0x00#8, 0xFD#8, 0x24#8, 0x8000#16⟩ [0xAD#8, 0x34#8, 0x02#8] [(0x0234#16, 0x7F#8)]
      ⟨0x7F#8, 0x00#8, 0x00#8, 0xFD#8, 0x24#8, 0x8003#16⟩ [] 4 = true := by decide

theorem test_ldaAbx_V106 :
    vector ⟨0x00#8, 0x0F#8, 0x00#8, 0xFD#8, 0x24#8, 0x8000#16⟩ [0xBD#8, 0xF0#8, 0x02#8] [(0x02FF#16, 0x11#8)]
      ⟨0x11#8, 0x0F#8, 0x00#8, 0xFD#8, 0x24#8, 0x8003#16⟩ [] 4 = true := by decide

theorem test_ldaAbx_V107 :
    vector ⟨0x00#8, 0x10#8, 0x00#8, 0xFD#8, 0x24#8, 0x8000#16⟩ [0xBD#8, 0xF0#8, 0x02#8] [(0x0300#16, 0x22#8)]
      ⟨0x22#8, 0x10#8, 0x00#8, 0xFD#8, 0x24#8, 0x8003#16⟩ [] 5 = true := by decide

theorem test_ldaAby_V108 :
    vector ⟨0x00#8, 0x00#8, 0x01#8, 0xFD#8, 0x24#8, 0x8000#16⟩ [0xB9#8, 0xFF#8, 0x1F#8] []
      ⟨0x00#8, 0x00#8, 0x01#8, 0xFD#8, 0x26#8, 0x8003#16⟩ [] 5 = true := by decide

theorem test_ldxAby_V109 :
    vector ⟨0x00#8, 0x00#8, 0x80#8, 0xFD#8, 0x24#8, 0x8000#16⟩ [0xBE#8, 0x80#8, 0x03#8] [(0x0400#16, 0xFE#8)]
      ⟨0x00#8, 0xFE#8, 0x80#8, 0xFD#8, 0xA4#8, 0x8003#16⟩ [] 5 = true := by decide

theorem test_ldaIzx_V110 :
    vector ⟨0x00#8, 0x01#8, 0x00#8, 0xFD#8, 0x24#8, 0x8000#16⟩ [0xA1#8, 0xFE#8] [(0x0000#16, 0x02#8), (0x00FF#16, 0x34#8), (0x0100#16, 0x07#8), (0x0234#16, 0x5A#8)]
      ⟨0x5A#8, 0x01#8, 0x00#8, 0xFD#8, 0x24#8, 0x8002#16⟩ [] 6 = true := by decide

theorem test_ldaIzy_V111 :
    vector ⟨0x00#8, 0x00#8, 0x20#8, 0xFD#8, 0x24#8, 0x8000#16⟩ [0xB1#8, 0x10#8] [(0x0010#16, 0xF0#8), (0x0011#16, 0x02#8), (0x0310#16, 0x77#8)]
      ⟨0x77#8, 0x00#8, 0x20#8, 0xFD#8, 0x24#8, 0x8002#16⟩ [] 6 = true := by decide

theorem test_ldaIzy_V112 :
    vector ⟨0x00#8, 0x00#8, 0x01#8, 0xFD#8, 0x24#8, 0x8000#16⟩ [0xB1#8, 0xFF#8] [(0x0000#16, 0x03#8), (0x00FF#16, 0x00#8), (0x0100#16, 0x06#8), (0x0301#16, 0x66#8), (0x0601#16, 0x99#8)]
      ⟨0x66#8, 0x00#8, 0x01#8, 0xFD#8, 0x24#8, 0x8002#16⟩ [] 5 = true := by decide

theorem test_ldaAbs_V114 :
    vector ⟨0x55#8, 0x00#8, 0x00#8, 0xFD#8, 0x24#8, 0x8000#16⟩ [0xAD#8, 0x18#8, 0x40#8] []
      ⟨0x00#8, 0x00#8, 0x00#8, 0xFD#8, 0x26#8, 0x8003#16⟩ [] 4 = true := by decide

theorem test_staAbx_V115 :
    vector ⟨0xAB#8, 0x20#8, 0x00#8, 0xFD#8, 0x24#8, 0x8000#16⟩ [0x9D#8, 0xF0#8, 0x02#8] []
      ⟨0xAB#8, 0x20#8, 0x00#8, 0xFD#8, 0x24#8, 0x8003#16⟩ [(0x0310#16, 0xAB#8)] 5 = true := by decide

theorem test_staIzy_V116 :
    vector ⟨0xCD#8, 0x00#8, 0xFF#8, 0xFD#8, 0x24#8, 0x8000#16⟩ [0x91#8, 0x10#8] [(0x0010#16, 0x01#8), (0x0011#16, 0x03#8)]
      ⟨0xCD#8, 0x00#8, 0xFF#8, 0xFD#8, 0x24#8, 0x8002#16⟩ [(0x0400#16, 0xCD#8)] 6 = true := by decide

theorem test_staIzx_V117 :
    vector ⟨0xEE#8, 0xF0#8, 0x00#8, 0xFD#8, 0x24#8, 0x8000#16⟩ [0x81#8, 0x10#8] [(0x0000#16, 0x00#8), (0x0001#16, 0x05#8)]
      ⟨0xEE#8, 0xF0#8, 0x00#8, 0xFD#8, 0x24#8, 0x8002#16⟩ [(0x0500#16, 0xEE#8)] 6 = true := by decide

theorem test_staAbs_V118 :
    vector ⟨0x12#8, 0x00#8, 0x00#8, 0xFD#8, 0x24#8, 0x8000#16⟩ [0x8D#8, 0x00#8, 0x80#8] []
      ⟨0x12#8, 0x00#8, 0x00#8, 0xFD#8, 0x24#8, 0x8003#16⟩ [] 4 = true := by decide

theorem test_stxZpy_V119 :
    vector ⟨0x00#8, 0x77#8, 0x05#8, 0xFD#8, 0x24#8, 0x8000#16⟩ [0x96#8, 0x10#8] []
      ⟨0x00#8, 0x77#8, 0x05#8, 0xFD#8, 0x24#8, 0x8002#16⟩ [(0x0015#16, 0x77#8)] 4 = true := by decide

theorem test_styZpx_V120 :
    vector ⟨0x00#8, 0x01#8, 0x88#8, 0xFD#8, 0x24#8, 0x8000#16⟩ [0x94#8, 0xFF#8] []
      ⟨0x00#8, 0x01#8, 0x88#8, 0xFD#8, 0x24#8, 0x8002#16⟩ [(0x0000#16, 0x88#8)] 4 = true := by decide

theorem test_tax_V121 :
    vector ⟨0x80#8, 0x00#8, 0x00#8, 0xFD#8, 0x24#8, 0x8000#16⟩ [0xAA#8] []
      ⟨0x80#8, 0x80#8, 0x00#8, 0xFD#8, 0xA4#8, 0x8001#16⟩ [] 2 = true := by decide

theorem test_txs_V122 :
    vector ⟨0x00#8, 0x00#8, 0x00#8, 0xFD#8, 0xA4#8, 0x8000#16⟩ [0x9A#8] []
      ⟨0x00#8, 0x00#8, 0x00#8, 0x00#8, 0xA4#8, 0x8001#16⟩ [] 2 = true := by decide

theorem test_tsx_V123 :
    vector ⟨0x00#8, 0x00#8, 0x00#8, 0x00#8, 0x24#8, 0x8000#16⟩ [0xBA#8] []
      ⟨0x00#8, 0x00#8, 0x00#8, 0x00#8, 0x26#8, 0x8001#16⟩ [] 2 = true := by decide

theorem test_tya_V124 :
    vector ⟨0x01#8, 0x00#8, 0xFF#8, 0xFD#8, 0x24#8, 0x8000#16⟩ [0x98#8] []
      ⟨0xFF#8, 0x00#8, 0xFF#8, 0xFD#8, 0xA4#8, 0x8001#16⟩ [] 2 = true := by decide

theorem test_pha_V125 :
    vector ⟨0x42#8, 0x00#8, 0x00#8, 0x00#8, 0x24#8, 0x8000#16⟩ [0x48#8] []
      ⟨0x42#8, 0x00#8, 0x00#8, 0xFF#8, 0x24#8, 0x8001#16⟩ [(0x0100#16, 0x42#8), (0x01FF#16, 0x00#8)] 3 = true := by decide

theorem test_pla_V126 :
    vector ⟨0x00#8, 0x00#8, 0x00#8, 0xFF#8, 0x24#8, 0x8000#16⟩ [0x68#8] [(0x0100#16, 0x80#8)]
      ⟨0x80#8, 0x00#8, 0x00#8, 0x00#8, 0xA4#8, 0x8001#16⟩ [] 4 = true := by decide

theorem test_php_V127 :
    vector ⟨0x00#8, 0x00#8, 0x00#8, 0xFD#8, 0xE5#8, 0x8000#16⟩ [0x08#8] []
      ⟨0x00#8, 0x00#8, 0x00#8, 0xFC#8, 0xE5#8, 0x8001#16⟩ [(0x01FD#16, 0xF5#8)] 3 = true := by decide

theorem test_plp_V128 :
    vector ⟨0x00#8, 0x00#8, 0x00#8, 0xFC#8, 0x24#8, 0x8000#16⟩ [0x28#8] [(0x01FD#16, 0x00#8)]
      ⟨0x00#8, 0x00#8, 0x00#8, 0xFD#8, 0x20#8, 0x8001#16⟩ [] 4 = true := by decide

theorem test_plp_V129 :
    vector ⟨0x00#8, 0x00#8, 0x00#8, 0xFC#8, 0x24#8, 0x8000#16⟩ [0x28#8] [(0x01FD#16, 0xFF#8)]
      ⟨0x00#8, 0x00#8, 0x00#8, 0xFD#8, 0xEF#8, 0x8001#16⟩ [] 4 = true := by decide

theorem test_adcImm_V132 :
    vector ⟨0x50#8, 0x00#8, 0x00#8, 0xFD#8, 0x24#8, 0x8000#16⟩ [0x69#8, 0x50#8] []
      ⟨0xA0#8, 0x00#8, 0x00#8, 0xFD#8, 0xE4#8, 0x8002#16⟩ [] 2 = true := by decide

theorem test_adcImm_V137 :
    vector ⟨0xD0#8, 0x00#8, 0x00#8, 0xFD#8, 0x24#8, 0x8000#16⟩ [0x69#8, 0x90#8] []
      ⟨0x60#8, 0x00#8, 0x00#8, 0xFD#8, 0x65#8, 0x8002#16⟩ [] 2 = true := by decide

theorem test_adcAbx_V145 :
    vector ⟨0x01#8, 0x01#8, 0x00#8, 0xFD#8, 0x24#8, 0x8000#16⟩ [0x7D#8, 0xFF#8, 0x02#8] [(0x0300#16, 0x01#8)]
      ⟨0x02#8, 0x01#8, 0x00#8, 0xFD#8, 0x24#8, 0x8003#16⟩ [] 5 = true := by decide

theorem test_sbcImm_V147 :
    vector ⟨0x50#8, 0x00#8, 0x00#8, 0xFD#8, 0x25#8, 0x8000#16⟩ [0xE9#8, 0xB0#8] []
      ⟨0xA0#8, 0x00#8, 0x00#8, 0xFD#8, 0xE4#8, 0x8002#16⟩ [] 2 = true := by decide

theorem test_sbcImm_V157 :
    vector ⟨0x50#8, 0x00#8, 0x00#8, 0xFD#8, 0x24#8, 0x8000#16⟩ [0xE9#8, 0x50#8] []
      ⟨0xFF#8, 0x00#8, 0x00#8, 0xFD#8, 0xA4#8, 0x8002#16⟩ [] 2 = true := by decide

theorem test_cmpImm_V161 :
    vector ⟨0x80#8, 0x00#8, 0x00#8, 0xFD#8, 0x24#8, 0x8000#16⟩ [0xC9#8, 0x01#8] []
      ⟨0x80#8, 0x00#8, 0x00#8, 0xFD#8, 0x25#8, 0x8002#16⟩ [] 2 = true := by decide

theorem test_cmpImm_V162 :
    vector ⟨0xFF#8, 0x00#8, 0x00#8, 0xFD#8, 0x64#8, 0x8000#16⟩ [0xC9#8, 0x00#8] []
      ⟨0xFF#8, 0x00#8, 0x00#8, 0xFD#8, 0xE5#8, 0x8002#16⟩ [] 2 = true := by decide

theorem test_cpxZp_V163 :
    vector ⟨0x00#8, 0x10#8, 0x00#8, 0xFD#8, 0x24#8, 0x8000#16⟩ [0xE4#8, 0x10#8] [(0x0010#16, 0x11#8)]
      ⟨0x00#8, 0x10#8, 0x00#8, 0xFD#8, 0xA4#8, 0x8002#16⟩ [] 3 = true := by decide

theorem test_cpyAbs_V164 :
    vector ⟨0x00#8, 0x00#8, 0xFF#8, 0xFD#8, 0x24#8, 0x8000#16⟩ [0xCC#8, 0x00#8, 0x03#8] [(0x0300#16, 0x7F#8)]
      ⟨0x00#8, 0x00#8, 0xFF#8, 0xFD#8, 0xA5#8, 0x8003#16⟩ [] 4 = true := by decide

theorem test_incZp_V165 :
    vector ⟨0x00#8, 0x00#8, 0x00#8, 0xFD#8, 0x24#8, 0x8000#16⟩ [0xE6#8, 0x10#8] [(0x0010#16, 0x7F#8)]
      ⟨0x00#8, 0x00#8, 0x00#8, 0xFD#8, 0xA4#8, 0x8002#16⟩ [(0x0010#16, 0x80#8)] 5 = true := by decide

theorem test_incAbx_V166 :
    vector ⟨0x00#8, 0x01#8, 0x00#8, 0xFD#8, 0x24#8, 0x8000#16⟩ [0xFE#8, 0xFF#8, 0x02#8] [(0x0300#16, 0xFF#8)]
      ⟨0x00#8, 0x01#8, 0x00#8, 0xFD#8, 0x26#8, 0x8003#16⟩ [(0x0300#16, 0x00#8)] 7 = true := by decide

theorem test_decAbs_V167 :
    vector ⟨0x00#8, 0x00#8, 0x00#8, 0xFD#8, 0x24#8, 0x8000#16⟩ [0xCE#8, 0x00#8, 0x02#8] [(0x0200#16, 0x00#8)]
      ⟨0x00#8, 0x00#8, 0x00#8, 0xFD#8, 0xA4#8, 0x8003#16⟩ [(0x0200#16, 0xFF#8)] 6 = true := by decide

theorem test_inx_V168 :
    vector ⟨0x00#8, 0xFF#8, 0x00#8, 0xFD#8, 0x24#8, 0x8000#16⟩ [0xE8#8] []
      ⟨0x00#8, 0x00#8, 0x00#8, 0xFD#8, 0x26#8, 0x8001#16⟩ [] 2 = true := by decide

theorem test_dey_V169 :
    vector ⟨0x00#8, 0x00#8, 0x00#8, 0xFD#8, 0x24#8, 0x8000#16⟩ [0x88#8] []
      ⟨0x00#8, 0x00#8, 0xFF#8, 0xFD#8, 0xA4#8, 0x8001#16⟩ [] 2 = true := by decide

theorem test_andImm_V170 :
    vector ⟨0xAA#8, 0x00#8, 0x00#8, 0xFD#8, 0x24#8, 0x8000#16⟩ [0x29#8, 0xF0#8] []
      ⟨0xA0#8, 0x00#8, 0x00#8, 0xFD#8, 0xA4#8, 0x8002#16⟩ [] 2 = true := by decide

theorem test_oraZp_V171 :
    vector ⟨0x0F#8, 0x00#8, 0x00#8, 0xFD#8, 0x24#8, 0x8000#16⟩ [0x05#8, 0x10#8] [(0x0010#16, 0x00#8)]
      ⟨0x0F#8, 0x00#8, 0x00#8, 0xFD#8, 0x24#8, 0x8002#16⟩ [] 3 = true := by decide

theorem test_eorImm_V172 :
    vector ⟨0xFF#8, 0x00#8, 0x00#8, 0xFD#8, 0x24#8, 0x8000#16⟩ [0x49#8, 0xFF#8] []
      ⟨0x00#8, 0x00#8, 0x00#8, 0xFD#8, 0x26#8, 0x8002#16⟩ [] 2 = true := by decide

theorem test_bitAbs_V173 :
    vector ⟨0xFF#8, 0x00#8, 0x00#8, 0xFD#8, 0x25#8, 0x8000#16⟩ [0x2C#8, 0x00#8, 0x03#8] [(0x0300#16, 0x3F#8)]
      ⟨0xFF#8, 0x00#8, 0x00#8, 0xFD#8, 0x25#8, 0x8003#16⟩ [] 4 = true := by decide

theorem test_bitZp_V174 :
    vector ⟨0x00#8, 0x00#8, 0x00#8, 0xFD#8, 0x24#8, 0x8000#16⟩ [0x24#8, 0x10#8] [(0x0010#16, 0xFF#8)]
      ⟨0x00#8, 0x00#8, 0x00#8, 0xFD#8, 0xE6#8, 0x8002#16⟩ [] 3 = true := by decide

theorem test_aslAcc_V175 :
    vector ⟨0x80#8, 0x00#8, 0x00#8, 0xFD#8, 0x24#8, 0x8000#16⟩ [0x0A#8] []
      ⟨0x00#8, 0x00#8, 0x00#8, 0xFD#8, 0x27#8, 0x8001#16⟩ [] 2 = true := by decide

theorem test_aslZp_V176 :
    vector ⟨0x00#8, 0x00#8, 0x00#8, 0xFD#8, 0x25#8, 0x8000#16⟩ [0x06#8, 0x10#8] [(0x0010#16, 0x41#8)]
      ⟨0x00#8, 0x00#8, 0x00#8, 0xFD#8, 0xA4#8, 0x8002#16⟩ [(0x0010#16, 0x82#8)] 5 = true := by decide

theorem test_lsrAbs_V177 :
    vector ⟨0x00#8, 0x00#8, 0x00#8, 0xFD#8, 0x24#8, 0x8000#16⟩ [0x4E#8, 0x00#8, 0x02#8] [(0x0200#16, 0x01#8)]
      ⟨0x00#8, 0x00#8, 0x00#8, 0xFD#8, 0x27#8, 0x8003#16⟩ [(0x0200#16, 0x00#8)] 6 = true := by decide

theorem test_rolAcc_V178 :
    vector ⟨0x80#8, 0x00#8, 0x00#8, 0xFD#8, 0x24#8, 0x8000#16⟩ [0x2A#8] []
      ⟨0x00#8, 0x00#8, 0x00#8, 0xFD#8, 0x27#8, 0x8001#16⟩ [] 2 = true := by decide

theorem test_rolZpx_V179 :
    vector ⟨0x00#8, 0x01#8, 0x00#8, 0xFD#8, 0x25#8, 0x8000#16⟩ [0x36#8, 0x10#8] [(0x0011#16, 0x7F#8)]
      ⟨0x00#8, 0x01#8, 0x00#8, 0xFD#8, 0xA4#8, 0x8002#16⟩ [(0x0011#16, 0xFF#8)] 6 = true := by decide

theorem test_rorAcc_V180 :
    vector ⟨0x01#8, 0x00#8, 0x00#8, 0xFD#8, 0x24#8, 0x8000#16⟩ [0x6A#8] []
      ⟨0x00#8, 0x00#8, 0x00#8, 0xFD#8, 0x27#8, 0x8001#16⟩ [] 2 = true := by decide

theorem test_rorAcc_V181 :
    vector ⟨0x00#8, 0x00#8, 0x00#8, 0xFD#8, 0x25#8, 0x8000#16⟩ [0x6A#8] []
      ⟨0x80#8, 0x00#8, 0x00#8, 0xFD#8, 0xA4#8, 0x8001#16⟩ [] 2 = true := by decide

theorem test_rorAbx_V182 :
    vector ⟨0x00#8, 0x80#8, 0x00#8, 0xFD#8, 0x25#8, 0x8000#16⟩ [0x7E#8, 0x80#8, 0x02#8] [(0x0300#16, 0xFE#8)]
      ⟨0x00#8, 0x80#8, 0x00#8, 0xFD#8, 0xA4#8, 0x8003#16⟩ [(0x0300#16, 0xFF#8)] 7 = true := by decide

theorem test_bne_V183 :
    vector ⟨0x00#8, 0x00#8, 0x00#8, 0xFD#8, 0x24#8, 0x8000#16⟩ [0xD0#8, 0x00#8] []
      ⟨0x00#8, 0x00#8, 0x00#8, 0xFD#8, 0x24#8, 0x8002#16⟩ [] 3 = true := by decide

theorem test_beq_V184 :
    vector ⟨0x00#8, 0x00#8, 0x00#8, 0xFD#8, 0x24#8, 0x8000#16⟩ [0xF0#8, 0x10#8] []
      ⟨0x00#8, 0x00#8, 0x00#8, 0xFD#8, 0x24#8, 0x8002#16⟩ [] 2 = true := by decide

theorem test_bpl_V185 :
    vector ⟨0x00#8, 0x00#8, 0x00#8, 0xFD#8, 0x24#8, 0x8000#16⟩ [0x10#8, 0xFE#8] []
      ⟨0x00#8, 0x00#8, 0x00#8, 0xFD#8, 0x24#8, 0x8000#16⟩ [] 3 = true := by decide

theorem test_bcc_V186 :
    vector ⟨0x00#8, 0x00#8, 0x00#8, 0xFD#8, 0x24#8, 0x8080#16⟩ [0x90#8, 0x7F#8] []
      ⟨0x00#8, 0x00#8, 0x00#8, 0xFD#8, 0x24#8, 0x8101#16⟩ [] 4 = true := by decide

theorem test_bcs_V187 :
    vector ⟨0x00#8, 0x00#8, 0x00#8, 0xFD#8, 0x25#8, 0x8100#16⟩ [0xB0#8, 0x80#8] []
      ⟨0x00#8, 0x00#8, 0x00#8, 0xFD#8, 0x25#8, 0x8082#16⟩ [] 4 = true := by decide

theorem test_bmi_V188 :
    vector ⟨0x00#8, 0x00#8, 0x00#8, 0xFD#8, 0xA4#8, 0x80FD#16⟩ [0x30#8, 0x02#8] []
      ⟨0x00#8, 0x00#8, 0x00#8, 0xFD#8, 0xA4#8, 0x8101#16⟩ [] 4 = true := by decide

theorem test_bvc_V189 :
    vector ⟨0x00#8, 0x00#8, 0x00#8, 0xFD#8, 0x24#8, 0x8010#16⟩ [0x50#8, 0xFD#8] []
      ⟨0x00#8, 0x00#8, 0x00#8, 0xFD#8, 0x24#8, 0x800F#16⟩ [] 3 = true := by decide

theorem test_bvs_V190 :
    vector ⟨0x00#8, 0x00#8, 0x00#8, 0xFD#8, 0x64#8, 0x8000#16⟩ [0x70#8, 0x05#8] []
      ⟨0x00#8, 0x00#8, 0x00#8, 0xFD#8, 0x64#8, 0x8007#16⟩ [] 3 = true := by decide

theorem test_jmpAbs_V191 :
    vector ⟨0x00#8, 0x00#8, 0x00#8, 0xFD#8, 0x24#8, 0x8000#16⟩ [0x4C#8, 0x34#8, 0x12#8] []
      ⟨0x00#8, 0x00#8, 0x00#8, 0xFD#8, 0x24#8, 0x1234#16⟩ [] 3 = true := by decide

theorem test_jmpInd_V192 :
    vector ⟨0x00#8, 0x00#8, 0x00#8, 0xFD#8, 0x24#8, 0x8000#16⟩ [0x6C#8, 0xFF#8, 0x02#8] [(0x0200#16, 0x80#8), (0x02FF#16, 0x00#8), (0x0300#16, 0x90#8)]
      ⟨0x00#8, 0x00#8, 0x00#8, 0xFD#8, 0x24#8, 0x8000#16⟩ [] 5 = true := by decide

theorem test_jmpInd_V193 :
    vector ⟨0x00#8, 0x00#8, 0x00#8, 0xFD#8, 0x24#8, 0x8000#16⟩ [0x6C#8, 0x00#8, 0x03#8] [(0x0300#16, 0xCD#8), (0x0301#16, 0xAB#8)]
      ⟨0x00#8, 0x00#8, 0x00#8, 0xFD#8, 0x24#8, 0xABCD#16⟩ [] 5 = true := by decide

theorem test_jsr_V194 :
    vector ⟨0x00#8, 0x00#8, 0x00#8, 0xFD#8, 0x24#8, 0x80F0#16⟩ [0x20#8, 0x56#8, 0x34#8] []
      ⟨0x00#8, 0x00#8, 0x00#8, 0xFB#8, 0x24#8, 0x3456#16⟩ [(0x01FD#16, 0x80#8), (0x01FC#16, 0xF2#8)] 6 = true := by decide

theorem test_rts_V195 :
    vector ⟨0x00#8, 0x00#8, 0x00#8, 0xFB#8, 0x24#8, 0x8000#16⟩ [0x60#8] [(0x01FC#16, 0xFF#8), (0x01FD#16, 0xFF#8)]
      ⟨0x00#8, 0x00#8, 0x00#8, 0xFD#8, 0x24#8, 0x0000#16⟩ [] 6 = true := by decide

theorem test_sec_V197 :
    vector ⟨0x00#8, 0x00#8, 0x00#8, 0xFD#8, 0x24#8, 0x8000#16⟩ [0x38#8] []
      ⟨0x00#8, 0x00#8, 0x00#8, 0xFD#8, 0x25#8, 0x8001#16⟩ [] 2 = true := by decide

theorem test_clc_V198 :
    vector ⟨0x00#8, 0x00#8, 0x00#8, 0xFD#8, 0xE5#8, 0x8000#16⟩ [0x18#8] []
      ⟨0x00#8, 0x00#8, 0x00#8, 0xFD#8, 0xE4#8, 0x8001#16⟩ [] 2 = true := by decide

theorem test_cli_V199 :
    vector ⟨0x00#8, 0x00#8, 0x00#8, 0xFD#8, 0x24#8, 0x8000#16⟩ [0x58#8] []
      ⟨0x00#8, 0x00#8, 0x00#8, 0xFD#8, 0x20#8, 0x8001#16⟩ [] 2 = true := by decide

theorem test_sei_V200 :
    vector ⟨0x00#8, 0x00#8, 0x00#8, 0xFD#8, 0x20#8, 0x8000#16⟩ [0x78#8] []
      ⟨0x00#8, 0x00#8, 0x00#8, 0xFD#8, 0x24#8, 0x8001#16⟩ [] 2 = true := by decide

theorem test_clv_V201 :
    vector ⟨0x00#8, 0x00#8, 0x00#8, 0xFD#8, 0xE4#8, 0x8000#16⟩ [0xB8#8] []
      ⟨0x00#8, 0x00#8, 0x00#8, 0xFD#8, 0xA4#8, 0x8001#16⟩ [] 2 = true := by decide

theorem test_sed_V202 :
    vector ⟨0x00#8, 0x00#8, 0x00#8, 0xFD#8, 0x24#8, 0x8000#16⟩ [0xF8#8] []
      ⟨0x00#8, 0x00#8, 0x00#8, 0xFD#8, 0x2C#8, 0x8001#16⟩ [] 2 = true := by decide

theorem test_cld_V203 :
    vector ⟨0x00#8, 0x00#8, 0x00#8, 0xFD#8, 0x2C#8, 0x8000#16⟩ [0xD8#8] []
      ⟨0x00#8, 0x00#8, 0x00#8, 0xFD#8, 0x24#8, 0x8001#16⟩ [] 2 = true := by decide

theorem test_nop_V204 :
    vector ⟨0x01#8, 0x02#8, 0x03#8, 0xFD#8, 0xE5#8, 0x8000#16⟩ [0xEA#8] []
      ⟨0x01#8, 0x02#8, 0x03#8, 0xFD#8, 0xE5#8, 0x8001#16⟩ [] 2 = true := by decide

theorem test_brk_V205 :
    vector ⟨0x00#8, 0x00#8, 0x00#8, 0xFD#8, 0xE1#8, 0x8000#16⟩ [0x00#8, 0xFF#8] [(0xFFFE#16, 0x00#8), (0xFFFF#16, 0x90#8)]
      ⟨0x00#8, 0x00#8, 0x00#8, 0xFA#8, 0xE5#8, 0x9000#16⟩ [(0x01FD#16, 0x80#8), (0x01FC#16, 0x02#8), (0x01FB#16, 0xF1#8)] 7 = true := by decide

theorem test_brk_V206 :
    vector ⟨0x00#8, 0x00#8, 0x00#8, 0x01#8, 0x24#8, 0x8000#16⟩ [0x00#8] [(0xFFFE#16, 0x00#8), (0xFFFF#16, 0x90#8)]
      ⟨0x00#8, 0x00#8, 0x00#8, 0xFE#8, 0x24#8, 0x9000#16⟩ [(0x0101#16, 0x80#8), (0x0100#16, 0x02#8), (0x01FF#16, 0x34#8)] 7 = true := by decide

theorem test_rti_V207 :
    vector ⟨0x00#8, 0x00#8, 0x00#8, 0xFA#8, 0x24#8, 0x8000#16⟩ [0x40#8] [(0x01FB#16, 0xFF#8), (0x01FC#16, 0x34#8), (0x01FD#16, 0x12#8)]
      ⟨0x00#8, 0x00#8, 0x00#8, 0xFD#8, 0xEF#8, 0x1234#16⟩ [] 6 = true := by decide

theorem test_rti_V208 :
    vector ⟨0x00#8, 0x00#8, 0x00#8, 0xFF#8, 0x24#8, 0x8000#16⟩ [0x40#8] [(0x0100#16, 0x00#8), (0x0101#16, 0x00#8), (0x0102#16, 0xC0#8)]
      ⟨0x00#8, 0x00#8, 0x00#8, 0x02#8, 0x20#8, 0xC000#16⟩ [] 6 = true := by decide

theorem test_dopImm80_V209 :
    vector ⟨0x00#8, 0x00#8, 0x00#8, 0xFD#8, 0xE5#8, 0x8000#16⟩ [0x80#8, 0x55#8] []
      ⟨0x00#8, 0x00#8, 0x00#8, 0xFD#8, 0xE5#8, 0x8002#16⟩ [] 2 = true := by decide

theorem test_dopZpx14_V210 :
    vector ⟨0x00#8, 0x20#8, 0x00#8, 0xFD#8, 0x24#8, 0x8000#16⟩ [0x14#8, 0xF0#8] []
      ⟨0x00#8, 0x20#8, 0x00#8, 0xFD#8, 0x24#8, 0x8002#16⟩ [] 4 = true := by decide

theorem test_topAbs_V211 :
    vector ⟨0x00#8, 0x00#8, 0x00#8, 0xFD#8, 0x24#8, 0x8000#16⟩ [0x0C#8, 0x02#8, 0x20#8] []
      ⟨0x00#8, 0x00#8, 0x00#8, 0xFD#8, 0x24#8, 0x8003#16⟩ [] 4 = true := by decide

theorem test_topAbx3C_V212 :
    vector ⟨0x00#8, 0x0F#8, 0x00#8, 0xFD#8, 0x24#8, 0x8000#16⟩ [0x3C#8, 0xF0#8, 0x02#8] []
      ⟨0x00#8, 0x0F#8, 0x00#8, 0xFD#8, 0x24#8, 0x8003#16⟩ [] 4 = true := by decide

theorem test_topAbxFC_V213 :
    vector ⟨0x00#8, 0x10#8, 0x00#8, 0xFD#8, 0x24#8, 0x8000#16⟩ [0xFC#8, 0xF0#8, 0x02#8] []
      ⟨0x00#8, 0x10#8, 0x00#8, 0xFD#8, 0x24#8, 0x8003#16⟩ [] 5 = true := by decide

theorem test_nopFA_V214 :
    vector ⟨0x00#8, 0x00#8, 0x00#8, 0xFD#8, 0x65#8, 0x8000#16⟩ [0xFA#8] []
      ⟨0x00#8, 0x00#8, 0x00#8, 0xFD#8, 0x65#8, 0x8001#16⟩ [] 2 = true := by decide

theorem test_laxIzx_V215 :
    vector ⟨0x00#8, 0x04#8, 0x00#8, 0xFD#8, 0x24#8, 0x8000#16⟩ [0xA3#8, 0x10#8] [(0x0014#16, 0x00#8), (0x0015#16, 0x03#8), (0x0300#16, 0x00#8)]
      ⟨0x00#8, 0x00#8, 0x00#8, 0xFD#8, 0x26#8, 0x8002#16⟩ [] 6 = true := by decide

theorem test_laxIzy_V216 :
    vector ⟨0x00#8, 0x00#8, 0x01#8, 0xFD#8, 0x24#8, 0x8000#16⟩ [0xB3#8, 0x10#8] [(0x0010#16, 0xFF#8), (0x0011#16, 0x02#8), (0x0300#16, 0xC3#8)]
      ⟨0xC3#8, 0xC3#8, 0x01#8, 0xFD#8, 0xA4#8, 0x8002#16⟩ [] 6 = true := by decide

theorem test_laxAby_V217 :
    vector ⟨0x00#8, 0x00#8, 0x05#8, 0xFD#8, 0x24#8, 0x8000#16⟩ [0xBF#8, 0x00#8, 0x03#8] [(0x0305#16, 0x7E#8)]
      ⟨0x7E#8, 0x7E#8, 0x05#8, 0xFD#8, 0x24#8, 0x8003#16⟩ [] 4 = true := by decide

theorem test_aaxIzx_V218 :
    vector ⟨0xFF#8, 0x0F#8, 0x00#8, 0xFD#8, 0xA5#8, 0x8000#16⟩ [0x83#8, 0x10#8] [(0x001F#16, 0x00#8), (0x0020#16, 0x04#8)]
      ⟨0xFF#8, 0x0F#8, 0x00#8, 0xFD#8, 0xA5#8, 0x8002#16⟩ [(0x0400#16, 0x0F#8)] 6 = true := by decide

theorem test_aaxZpy_V219 :
    vector ⟨0x55#8, 0xAA#8, 0x01#8, 0xFD#8, 0x24#8, 0x8000#16⟩ [0x97#8, 0x10#8] []
      ⟨0x55#8, 0xAA#8, 0x01#8, 0xFD#8, 0x24#8, 0x8002#16⟩ [(0x0011#16, 0x00#8)] 4 = true := by decide

theorem test_sloAby_V220 :
    vector ⟨0x01#8, 0x00#8, 0x01#8, 0xFD#8, 0x24#8, 0x8000#16⟩ [0x1B#8, 0xFF#8, 0x02#8] [(0x0300#16, 0xC0#8)]
      ⟨0x81#8, 0x00#8, 0x01#8, 0xFD#8, 0xA5#8, 0x8003#16⟩ [(0x0300#16, 0x80#8)] 7 = true := by decide

theorem test_rlaIzx_V221 :
    vector ⟨0x0F#8, 0x00#8, 0x00#8, 0xFD#8, 0x25#8, 0x8000#16⟩ [0x23#8, 0x10#8] [(0x0010#16, 0x00#8), (0x0011#16, 0x03#8), (0x0300#16, 0x80#8)]
      ⟨0x01#8, 0x00#8, 0x00#8, 0xFD#8, 0x25#8, 0x8002#16⟩ [(0x0300#16, 0x01#8)] 8 = true := by decide

theorem test_sreAbx_V222 :
    vector ⟨0xFF#8, 0x01#8, 0x00#8, 0xFD#8, 0x24#8, 0x8000#16⟩ [0x5F#8, 0x00#8, 0x03#8] [(0x0301#16, 0xFF#8)]
      ⟨0x80#8, 0x01#8, 0x00#8, 0xFD#8, 0xA5#8, 0x8003#16⟩ [(0x0301#16, 0x7F#8)] 7 = true := by decide

theorem test_rraZp_V223 :
    vector ⟨0x7F#8, 0x00#8, 0x00#8, 0xFD#8, 0x25#8, 0x8000#16⟩ [0x67#8, 0x10#8] [(0x0010#16, 0x01#8)]
      ⟨0x00#8, 0x00#8, 0x00#8, 0xFD#8, 0x27#8, 0x8002#16⟩ [(0x0010#16, 0x80#8)] 5 = true := by decide

theorem test_rraIzy_V224 :
    vector ⟨0x40#8, 0x00#8, 0x00#8, 0xFD#8, 0x24#8, 0x8000#16⟩ [0x73#8, 0x10#8] [(0x0010#16, 0x00#8), (0x0011#16, 0x03#8), (0x0300#16, 0x80#8)]
      ⟨0x80#8, 0x00#8, 0x00#8, 0xFD#8, 0xE4#8, 0x8002#16⟩ [(0x0300#16, 0x40#8)] 8 = true := by decide

theorem test_dcpIzy_V225 :
    vector ⟨0x00#8, 0x00#8, 0xFF#8, 0xFD#8, 0x24#8, 0x8000#16⟩ [0xD3#8, 0x10#8] [(0x0010#16, 0x02#8), (0x0011#16, 0x03#8), (0x0401#16, 0x00#8)]
      ⟨0x00#8, 0x00#8, 0xFF#8, 0xFD#8, 0x24#8, 0x8002#16⟩ [(0x0401#16, 0xFF#8)] 8 = true := by decide

theorem test_dcpAbx_V226 :
    vector ⟨0x7F#8, 0x00#8, 0x00#8, 0xFD#8, 0x24#8, 0x8000#16⟩ [0xDF#8, 0x00#8, 0x03#8] [(0x0300#16, 0x80#8)]
      ⟨0x7F#8, 0x00#8, 0x00#8, 0xFD#8, 0x27#8, 0x8003#16⟩ [(0x0300#16, 0x7F#8)] 7 = true := by decide

theorem test_iscAbx_V227 :
    vector ⟨0x00#8, 0x01#8, 0x00#8, 0xFD#8, 0x25#8, 0x8000#16⟩ [0xFF#8, 0xFF#8, 0x02#8] [(0x0300#16, 0xFF#8)]
      ⟨0x00#8, 0x01#8, 0x00#8, 0xFD#8, 0x27#8, 0x8003#16⟩ [(0x0300#16, 0x00#8)] 7 = true := by decide

theorem test_iscIzx_V228 :
    vector ⟨0x80#8, 0x00#8, 0x00#8, 0xFD#8, 0x25#8, 0x8000#16⟩ [0xE3#8, 0x10#8] [(0x0010#16, 0x00#8), (0x0011#16, 0x03#8), (0x0300#16, 0x00#8)]
      ⟨0x7F#8, 0x00#8, 0x00#8, 0xFD#8, 0x65#8, 0x8002#16⟩ [(0x0300#16, 0x01#8)] 8 = true := by decide

theorem test_sbcImmEB_V229 :
    vector ⟨0x00#8, 0x00#8, 0x00#8, 0xFD#8, 0x25#8, 0x8000#16⟩ [0xEB#8, 0x01#8] []
      ⟨0xFF#8, 0x00#8, 0x00#8, 0xFD#8, 0xA4#8, 0x8002#16⟩ [] 2 = true := by decide
/-! ## Devices: vectors of 95_test_vectors.md, Parts A and D -/

theorem test_length_counter_V1 :
    let l := (writes [(0x4015#16, 0x01#8), (0x4000#16, 0x00#8), (0x4003#16, 0x18#8)] quiet).apu.pulse1.len
    l.count = 2#8 ∧ l.clock.count = 1#8 ∧ l.clock.clock.count = 0#8 ∧ l.clock.clock.clock.count = 0#8 := by decide

theorem test_sweep_V3 :
    let ch := (writes [(0x4002#16, 0xF0#8), (0x4003#16, 0x00#8), (0x4001#16, 0xB2#8)] quiet).apu.pulse1
    let clocked (n : Nat) := (Pulse.clockSweep .one)^[n] ch
    ch.sweep.div = 3#3 ∧ (clocked 3).sweep.div = 0#3 ∧ (clocked 3).period = 0x0F0#11 ∧ (clocked 4).sweep.div = 3#3
      ∧ (clocked 4).period = 0x12C#11 := by decide

/-- An image with no byte set. -/
def blankImage (kind : MapperKind) (prg16k chr8k : Nat) (mirroring : Mirroring) : CartridgeImage where
  kind := kind
  prg16k := prg16k
  chr8k := chr8k
  prgRom := []
  prgRam := []
  chr := []
  ntExtra := []
  battery := false
  mirroring := mirroring

/-- The machine with a cartridge, its Reset serviced. -/
def withCartridge (image : CartridgeImage) : State := { quiet with cart := Cart.construct image }

theorem test_nrom_V4 :
    let s := withCartridge { blankImage .nrom 1 0 .horizontal with prgRom := [(0, 0x4C#8), (0x3FFC, 0x77#8)] }
    s.peek 0x8000#16 = 0x4C#8 ∧ s.peek 0xC000#16 = 0x4C#8 ∧ s.peek 0xFFFC#16 = 0x77#8 := by decide

theorem test_scroll_V302 :
    let s := writes [(0x2005#16, 0x7D#8)] quiet
    let t := writes [(0x2005#16, 0x5E#8)] s
    (s.ppu.t = 0x000F#15 ∧ s.ppu.fineX = 5#3 ∧ s.ppu.w = true)
      ∧ (t.ppu.t = 0x616F#15 ∧ t.ppu.w = false ∧ t.ppu.v = 0#15) := by decide

theorem test_address_V303 :
    let s := writes [(0x2005#16, 0x7D#8), (0x2005#16, 0x5E#8), (0x2006#16, 0x3D#8)] quiet
    let t := writes [(0x2006#16, 0xF0#8)] s
    (s.ppu.t = 0x3D6F#15 ∧ s.ppu.w = true) ∧ t.ppu.t = 0x3DF0#15 ∧ t.ppu.v = 0x3DF0#15 ∧ t.ppu.w = false := by decide

theorem test_toggle_V304 :
    let s := writes [(0x2006#16, 0x08#8), (0x2006#16, 0x10#8)] ((writes [(0x2006#16, 0x21#8)] quiet).touch 0x2002#16)
    s.ppu.v = 0x0810#15 ∧ s.ppu.t = 0x0810#15 ∧ s.ppu.w = false := by decide

theorem test_data_port_V305 :
    let s := writes [(0x2006#16, 0x21#8), (0x2006#16, 0x08#8), (0x2007#16, 0x5A#8), (0x2006#16, 0x21#8),
      (0x2006#16, 0x08#8)] quiet
    let t := s.touch 0x2007#16
    s.peek 0x2007#16 = 0x00#8 ∧ t.peek 0x2007#16 = 0x5A#8 ∧ t.ppu.v = 0x2109#15
      ∧ (t.touch 0x2007#16).ppu.v = 0x210A#15 := by decide

theorem test_palette_V306 :
    let s := writes [(0x2006#16, 0x3F#8), (0x2006#16, 0x10#8), (0x2007#16, 0x2A#8), (0x2006#16, 0x3F#8),
      (0x2006#16, 0x00#8)] quiet
    s.peek 0x2007#16 = 0x2A#8 ∧ (s.touch 0x2007#16).ppu.v = 0x3F01#15 := by decide

theorem test_palette_mirrors_V307 :
    let s := (((((quiet.writePpu 0x3F14#14 0x11#8).writePpu 0x3F18#14 0x12#8).writePpu 0x3F1C#14 0xD3#8).writePpu
      0x3F04#14 0x21#8).writePpu 0x3F31#14 0x05#8)
    s.ppu.palette = [(0x04, 0x21#8), (0x08, 0x12#8), (0x0C, 0x13#8), (0x11, 0x05#8)] := by decide

theorem test_frame_length_V308 :
    let at_ (scanline cycle : Nat) (odd rendering : Bool) : Ppu :=
      { Ppu.reset with scanline := scanline, cycle := cycle, oddFrame := odd, mask := if rendering then 0x08#8 else 0#8 }
    (at_ 20 339 true true).lineLength .vblankFirst = 340 ∧ (at_ 20 339 false true).lineLength .vblankFirst = 341
      ∧ (at_ 20 339 true false).lineLength .vblankFirst = 341 ∧ (at_ 19 339 true true).lineLength .vblankFirst = 341 := by decide

theorem test_data_step_V309 :
    let s := writes [(0x2000#16, 0x04#8), (0x2006#16, 0x20#8), (0x2006#16, 0x00#8), (0x2007#16, 1#8), (0x2007#16, 2#8),
      (0x2007#16, 3#8)] quiet
    s.peekPpu 0x2000#14 = 1#8 ∧ s.peekPpu 0x2020#14 = 2#8 ∧ s.peekPpu 0x2040#14 = 3#8 ∧ s.ppu.v = 0x2060#15 := by decide

theorem test_oam_V311 :
    let s := writes [(0x2003#16, 0xFE#8), (0x2004#16, 0xAA#8), (0x2004#16, 0xBB#8), (0x2004#16, 0xCC#8)] quiet
    s.ppu.oam = [(0x00, 0xCC#8), (0xFE, 0xAA#8), (0xFF, 0xBB#8)] ∧ s.ppu.oamAddr = 0x01#8
      ∧ (s.touch 0x2004#16).ppu.oamAddr = 0x01#8 := by decide

theorem test_oam_dma_V310 :
    let s := { quiet with ppu := { Ppu.reset with oamAddr := 0x10#8 }, ram := [(0x0200, 0xA0#8), (0x02FF, 0xAF#8)] }
    (s.memWrite 0x4014#16 0x02#8).1.ppu.oam = [(0x0F, 0xAF#8), (0x10, 0xA0#8)]
      ∧ (s.memWrite 0x4014#16 0x02#8).1.ppu.oamAddr = 0x10#8 := by decide +kernel

theorem test_length_table_V321 :
    let s := writes [(0x4015#16, 0x0F#8), (0x4003#16, 0x08#8), (0x4007#16, 0xF8#8), (0x400B#16, 0x00#8)] quiet
    s.apu.pulse1.len.count = 254#8 ∧ s.apu.pulse2.len.count = 30#8 ∧ s.apu.triangle.len.count = 10#8
      ∧ s.peek 0x4015#16 = 0x07#8 ∧ (writes [(0x4015#16, 0x02#8)] s).peek 0x4015#16 = 0x02#8 := by decide

theorem test_sweep_mute_V323 :
    let ch (period : BitVec 11) (negate : Bool) (shift : BitVec 3) : Pulse :=
      { Pulse.reset with period := period, sweep := { Sweep.reset with negate := negate, shift := shift } }
    (ch 0x555#11 false 1#3).sweepMuted .one = false ∧ (ch 0x556#11 false 1#3).sweepMuted .one = true
      ∧ (ch 0x400#11 false 0#3).sweepMuted .two = true ∧ (ch 0x100#11 true 1#3).sweepTarget .one = 0x07F
      ∧ (ch 0x100#11 true 1#3).sweepTarget .two = 0x080 ∧ (ch 0x007#11 false 0#3).sweepMuted .one = true := by decide

theorem test_lfsr_V324_V325 :
    let shifted (mode : Bool) (n : Nat) : BitVec 15 :=
      ((fun ch : Noise => { ch with lfsr := ch.shiftRegister })^[n] { Apu.reset.noise with mode := mode }).lfsr
    shifted false 1 = 0x4000#15 ∧ shifted false 15 = 0x4001#15 ∧ shifted false 18 = 0x1800#15
      ∧ shifted true 10 = 0x4020#15 ∧ shifted true 16 = 0x4100#15 ∧ shifted true 93 = 0x0001#15 := by decide +kernel

theorem test_dmc_level_V326 :
    dmcLevel 1#7 false = 1#7 ∧ dmcLevel 0#7 true = 2#7 ∧ dmcLevel 124#7 true = 126#7 ∧ dmcLevel 125#7 true = 127#7
      ∧ dmcLevel 126#7 true = 126#7 ∧ dmcLevel 127#7 true = 127#7 ∧ dmcLevel 127#7 false = 125#7
      ∧ dmcLevel 3#7 false = 1#7 := by decide

theorem test_dmc_address_V327 :
    let s := writes [(0x4010#16, 0x80#8), (0x4012#16, 0xFF#8), (0x4013#16, 0x04#8), (0x4015#16, 0x10#8)] quiet
    let last := { s with apu := { s.apu with dmc := { s.apu.dmc with curAddr := 0xFFFF#16, bytesRemaining := 1#12 } } }
    s.apu.dmc.sampleAddr = 0xFFC0#16 ∧ s.apu.dmc.sampleLen = 65#12 ∧ s.apu.dmc.bytesRemaining = 65#12
      ∧ last.fillBuffer.apu.dmc.curAddr = 0x8000#16 ∧ last.fillBuffer.pending = some .irq
      ∧ last.fillBuffer.peek 0x4015#16 = 0x80#8 := by decide

theorem test_frame_counter_V330 :
    let s := writes [(0x4015#16, 0x01#8), (0x4003#16, 0x08#8), (0x4017#16, 0xC0#8)] quiet
    s.apu.pulse1.len.count = 253#8 ∧ s.apu.frame.step = 1 ∧ s.apu.frame.fiveStep = true := by decide

theorem test_envelope_V331 :
    let e := (writes [(0x400C#16, 0x03#8), (0x400F#16, 0x08#8)] quiet).apu.noise.env
    let decay (n : Nat) := (Envelope.clock^[n] e).decay
    decay 1 = 15#4 ∧ decay 4 = 15#4 ∧ decay 5 = 14#4 ∧ decay 9 = 13#4 := by decide

theorem test_linear_counter_V332 :
    let ch := (writes [(0x4015#16, 0x04#8), (0x4008#16, 0x05#8), (0x400B#16, 0x08#8)] quiet).apu.triangle
    let linear (n : Nat) := (Triangle.clockLinear^[n] ch).linear
    linear 1 = 5#7 ∧ linear 2 = 4#7 ∧ linear 6 = 0#7 ∧ linear 7 = 0#7 ∧ ch.len.count = 254#8 := by decide

theorem test_mmc3_counter_V334 :
    let r : Mmc3 := { Mmc3.reset with irqLatch := 3#8, irqReload := true, irqEnable := true }
    let after (n : Nat) := (fun q : Mmc3 => (q.clockIrq .onUnderflow).1)^[n] r
    (after 1).irqCounter = 3#8 ∧ (after 4).irqCounter = 0#8 ∧ (after 5).irqCounter = 3#8
      ∧ ((after 3).clockIrq .onUnderflow).2 = false ∧ ((after 4).clockIrq .onUnderflow).2 = true := by decide

theorem test_mmc3_banks_V335 :
    let s := writes [(0x8000#16, 0x06#8), (0x8001#16, 0x05#8), (0x8000#16, 0x07#8), (0x8001#16, 0x09#8)]
      (withCartridge (blankImage .mmc3 8 1 .vertical))
    let t := writes [(0x8000#16, 0x46#8)] s
    (s.cart.prgSlot[0] = 40 ∧ s.cart.prgSlot[8] = 72 ∧ s.cart.prgSlot[16] = 112 ∧ s.cart.prgSlot[24] = 120)
      ∧ (t.cart.prgSlot[0] = 112 ∧ t.cart.prgSlot[8] = 72 ∧ t.cart.prgSlot[16] = 40 ∧ t.cart.prgSlot[24] = 120) := by
  decide +kernel

theorem test_mmc1_V337 :
    let bits (a : Addr) (l : List Byte) := writes (l.map fun b => (a, b))
    let s := bits 0x8000#16 [0x00#8, 0x01#8, 0x01#8, 0x01#8, 0x00#8] (withCartridge (blankImage .mmc1 8 0 .horizontal))
    let t := bits 0xE000#16 [0x01#8, 0x01#8, 0x00#8, 0x00#8, 0x00#8] s
    s.cart.mirroring = .vertical ∧ t.cart.prgSlot[0] = 48 ∧ t.cart.prgSlot[16] = 112 := by decide +kernel

theorem test_unrom_V339 :
    let s := writes [(0x8000#16, 0x05#8)] (withCartridge (blankImage .unrom 8 0 .vertical))
    let t := writes [(0xFFFF#16, 0x0A#8)] s
    s.cart.prgSlot[0] = 80 ∧ s.cart.prgSlot[15] = 95 ∧ s.cart.prgSlot[16] = 112 ∧ s.cart.prgSlot[31] = 127
      ∧ t.cart.prgSlot[0] = 32 := by decide +kernel

theorem test_gxrom_V340 :
    let s := writes [(0x8000#16, 0x21#8)] (withCartridge (blankImage .gxrom 8 4 .vertical))
    s.cart.prgSlot[0] = 64 ∧ s.cart.prgSlot[31] = 95 ∧ s.cart.chrSlot[0] = 8 ∧ s.cart.chrSlot[7] = 15 := by decide +kernel

theorem test_prg_ram_V341 :
    let s := writes [(0x6000#16, 0x77#8)] quiet
    s.peek 0x6000#16 = 0x77#8 ∧ s.peek 0x5000#16 = 0x00#8 := by decide

theorem test_mirroring_V342 :
    let reads (m : Mirroring) : List Byte :=
      let s := (withCartridge (blankImage .nrom 2 0 m)).writePpu 0x2400#14 0xAB#8
      [s.peekPpu 0x2000#14, s.peekPpu 0x2800#14, s.peekPpu 0x2C00#14, s.peekPpu 0x3400#14]
    reads .horizontal = [0xAB#8, 0x00#8, 0x00#8, 0xAB#8] ∧ reads .vertical = [0x00#8, 0x00#8, 0xAB#8, 0xAB#8]
      ∧ reads .oneScreenB = [0xAB#8, 0xAB#8, 0xAB#8, 0xAB#8] ∧ reads .fourScreen = [0x00#8, 0x00#8, 0x00#8, 0xAB#8] := by
  decide +kernel

theorem test_controller_V343 :
    let s := writes [(0x4016#16, 1#8), (0x4016#16, 0#8)] (quiet.captureButtons 0x89#8 0x00#8)
    ((List.range 10).map fun n => ((State.touch 0x4016#16)^[n] s).peek 0x4016#16)
      = [1#8, 0#8, 0#8, 1#8, 0#8, 0#8, 0#8, 1#8, 1#8, 1#8] := by decide

/-- 63_cartridge_bus_driver.md R378: `prg_ram` goes to the host when `battery = 1`, and not otherwise. -/
theorem test_battery_hands_out_the_ram :
    let s := writes [(0x6001#16, 0x5A#8)] { quiet with cart := { quiet.cart with battery := true } }
    (s.savedRam.map fun l => l.take 3) = some [0x00#8, 0x5A#8, 0x00#8] ∧ quiet.savedRam = none := by decide +kernel

/-- 70_reset_and_hazards.md R390: a Reset loads the parameters `RESET_*`. -/
theorem test_reset_takes_the_parameters :
    let q : Config.Params :=
      { Config.params with
        resetA := 1#8, resetX := 2#8, resetY := 3#8, resetS := 4#8, resetP := 0x20#8, resetCycles := 6 }
    let t := State.service .reset { quiet with params := q }
    (t.a, t.x, t.y, t.sp, t.p, t.cyc) = (1#8, 2#8, 3#8, 4#8, 0x20#8, 6) := by decide

theorem test_one_round_V345 :
    step State.reset = .next (State.ppuStep 21 (State.apuStep 7 { State.reset.service .reset with cyc := 7 })) := rfl

/-! ## Witnesses: for each obligation with hypotheses, states and operands that meet them -/

theorem witness_DecodeOfEncodeIsIdentity :
    (Instr.ldaAbs 0xFFFF#16).wf = true ∧ (Instr.nop).wf = true ∧ (Instr.unassigned 0xBB#8).wf = true := by decide

theorem witness_EncodeOfDecodeIsIdentity :
    decode [0x8D#8, 0xFF#8, 0xFF#8, 0xEA#8] = .ok (.staAbs 0xFFFF#16, [0xEA#8]) := rfl

theorem witness_UnassignedBytesAreRefused :
    let s := machine ⟨0#8, 0#8, 0#8, 0xFD#8, 0x24#8, 0x0200#16⟩ [(0x0200#16, 0xBB#8)]
    s.due = none ∧ s.peek s.pc ∈ unassignedOpcodes ∧ State.reset.due ≠ none := by decide

/-- LDA #$34 at the top of the address space, its operand byte at address 0. -/
def ldaAtTop : State := machine ⟨0#8, 0#8, 0#8, 0xFD#8, 0x24#8, 0xFFFF#16⟩ [(0xFFFF#16, 0xA9#8), (0x0000#16, 0x34#8)]

theorem witness_StepRunsTheInstructionAtPc :
    ∃ bytes u, (Instr.ldaImm 0x34#8).wf = true ∧ ldaAtTop.due = none
      ∧ readBytes (Instr.ldaImm 0x34#8).length ldaAtTop.pc ({ ldaAtTop with cyc := 0 }).passMasked = (bytes, u)
      ∧ bytes = encode (.ldaImm 0x34#8) := ⟨_, _, by decide, by decide, rfl, by decide⟩

/-- An immediate DOP whose bytes are read from $4015 (the DMC's flag, 80) and $4016 (20_memory.md R50: "if PC points into
one of these addresses the fetch has the side effect"; D19). -/
theorem test_fetch_of_an_immediate_dop_reads_its_operand :
    let s := { quiet with
      pc := 0x4015#16, ports := { Ports.reset with shift1 := 0x03#8 },
      apu := { Apu.reset with dmc := { Apu.reset.dmc with irq := true } } }
    s.fetchInstr.1 = .dopImm80 0x01#8 ∧ s.fetchInstr.2.ports.shift1 = 0x81#8 ∧ s.fetchInstr.2.pc = 0x4017#16 := by decide

/-- `quiet` with a request pending and the given P. -/
def asking (k : Interrupt) (p : Byte) : State := { quiet with pending := some k, p := p }

theorem witness_NmiAndIrqAreServiced :
    (asking .nmi 0x24#8).pending = some .nmi ∧ (asking .irq 0x20#8).pending = some .irq
      ∧ flagI (asking .irq 0x20#8).p = false := by decide

theorem witness_ResetIsServiced : State.reset.pending = some .reset := by decide

/-- A masked Irq at a NOP in RAM. -/
def masked (policy : Config.IrqMaskedPolicy) : State :=
  { machine ⟨0#8, 0#8, 0#8, 0xFD#8, 0x24#8, 0x0200#16⟩ [(0x0200#16, 0xEA#8)] with
    pending := some .irq, params := { Config.params with irqMasked := policy } }

theorem witness_MaskedIrqWaits :
    (masked .keep).pending = some .irq ∧ flagI (masked .keep).p = true ∧ (masked .keep).params.irqMasked = .keep
      ∧ (∃ t, step (masked .keep) = .next t) ∧ (masked .drop).pending = some .irq ∧ flagI (masked .drop).p = true
      ∧ (masked .drop).params.irqMasked = .drop := ⟨by decide, by decide, by decide, ⟨_, rfl⟩, by decide, by decide, by decide⟩

theorem witness_ReturnUndoesTheEntry : FlagByteOk quiet.p ∧ Interrupt.nmi ≠ .reset ∧ Interrupt.irq ≠ .reset :=
  ⟨⟨by decide, by decide⟩, by decide, by decide⟩

theorem witness_CallThenReturn :
    ∃ u v : State, exec (.jsr 0x1234#16) quiet = .next u ∧ v ≠ u ∧ v.sp = u.sp
      ∧ v.peek (stackAddress quiet.sp) = u.peek (stackAddress quiet.sp)
      ∧ v.peek (stackAddress (quiet.sp - 1#8)) = u.peek (stackAddress (quiet.sp - 1#8)) := by
  refine ⟨_, { State.pushAddr (quiet.pc - 1#16) quiet with a := 0x42#8, pc := 0x1234#16 }, rfl, ?_, rfl, rfl, rfl⟩
  intro h
  exact absurd (congrArg State.a h) (by decide)

theorem witness_OtherBytesOfMemoryAreKept :
    readChanges 0x2002#16 0x2000#16 = false ∧ readChanges 0x2002#16 0x2002#16 = true
      ∧ writeChanges 0x1FFF#16 0x2000#16 = false ∧ writeChanges 0x1FFF#16 0x07FF#16 = true
      ∧ writeChanges 0x7FFF#16 0x8000#16 = false ∧ writeChanges 0x8000#16 0x7FFF#16 = false
      ∧ writeChanges 0x4014#16 0x2004#16 = true ∧ writeChanges 0x4018#16 0x4018#16 = false
      ∧ (∃ t, exec (.ldaAbs 0x2002#16) quiet = .next t) ∧ (∃ t, exec (.staAbs 0x1FFF#16) quiet = .next t)
      ∧ (∃ t, exec (.incAbs 0x7FFF#16) quiet = .next t) ∧ ∃ t, exec .tax quiet = .next t :=
  ⟨by decide, by decide, by decide, by decide, by decide, by decide, by decide, by decide, ⟨_, rfl⟩, ⟨_, rfl⟩, ⟨_, rfl⟩,
    ⟨_, rfl⟩⟩

/-- How many encodings each instruction rule lists: every list of forms a statement ranges over has members. -/
theorem witness_forms_of_reading_instructions :
    ([ldaForms 0#8 0#16, ldxForms 0#8 0#16, ldyForms 0#8 0#16, laxForms 0#8 0#16, adcForms 0#8 0#16, sbcForms 0#8 0#16,
      cmpForms 0#8 0#16, cpxForms 0#8 0#16, cpyForms 0#8 0#16, andForms 0#8 0#16, oraForms 0#8 0#16, eorForms 0#8 0#16,
      bitForms 0#8 0#16, dopForms 0#8 0#16, topForms 0#8 0#16].map List.length)
      = [8, 5, 5, 6, 8, 9, 8, 3, 3, 8, 8, 8, 2, 9, 7] := rfl

/-- See `witness_forms_of_reading_instructions`. -/
theorem witness_forms_of_storing_instructions :
    ([staForms 0#8 0#16, stxForms 0#8 0#16, styForms 0#8 0#16, aaxForms 0#8 0#16, incForms 0#8 0#16, decForms 0#8 0#16,
      aslForms 0#8 0#16, lsrForms 0#8 0#16, rolForms 0#8 0#16, rorForms 0#8 0#16, sloForms 0#8 0#16, rlaForms 0#8 0#16,
      sreForms 0#8 0#16, rraForms 0#8 0#16, iscForms 0#8 0#16, dcpForms 0#8 0#16].map List.length)
      = [7, 3, 3, 4, 4, 4, 4, 4, 4, 4, 7, 7, 7, 7, 7, 7]
      ∧ transferForms.length = 5 ∧ countForms.length = 4 ∧ flagForms.length = 7 ∧ (idleForms 0#8).length = 12
      ∧ accumulatorShifts.length = 4 ∧ (branchForms 0#8).length = 8 := ⟨rfl, rfl, rfl, rfl, rfl, rfl, rfl⟩

theorem witness_LoadsLoad :
    (ldaForms 0#8 0#16, [CpuReg.a]) ∈ [(ldaForms 0#8 0#16, [CpuReg.a]), (ldxForms 0#8 0#16, [.x]),
      (ldyForms 0#8 0#16, [.y]), (laxForms 0#8 0#16, [.a, .x])] ∧ ∃ f, f ∈ ldaForms 0#8 0#16 :=
  ⟨List.mem_cons_self, _, List.mem_cons_self⟩

/-- Decimal mode present and selected, A = 99. -/
def decimal : State :=
  { quiet with a := 0x99#8, p := 0x2D#8, params := { Config.params with decimalEnable := true } }

theorem witness_DecimalModeIsDecimal :
    decimal.params.decimalEnable = true ∧ decimal.params.decimalFunctions = .nmos ∧ flagD decimal.p = true
      ∧ IsBcd decimal.a ∧ IsBcd ((Source.imm 0x99#8).value decimal)
      ∧ (∃ f ∈ adcForms 0x99#8 0#16, f.operand = .imm 0x99#8) ∧ ∃ f ∈ sbcForms 0x99#8 0#16, f.operand = .imm 0x99#8 :=
  ⟨by decide, by decide, by decide, ⟨by decide, by decide⟩, ⟨by decide, by decide⟩, ⟨_, List.mem_cons_self, rfl⟩,
    ⟨_, List.mem_cons_self, rfl⟩⟩

theorem witness_BranchesBranch :
    (0xD0#8, Instr.bne 0x80#8, 1, false) ∈ branchForms 0x80#8 ∧ quiet.p.getLsbD 1 = false
      ∧ (0xF0#8, Instr.beq 0x7F#8, 1, true) ∈ branchForms 0x7F#8 ∧ quiet.p.getLsbD 1 ≠ true := by decide

theorem witness_WritersOfFlagsAndRegisters :
    (∃ t, exec .sed quiet = .next t ∧ flagD t.p ≠ flagD quiet.p) ∧ (∃ t, exec .cli quiet = .next t ∧ flagI t.p ≠ flagI quiet.p)
      ∧ (∃ t, exec (.bitZp 0x10#8) { quiet with ram := [(0x10, 0x40#8)] } = .next t ∧ flagV t.p ≠ flagV quiet.p)
      ∧ (∃ t, exec .inx quiet = .next t ∧ t.x ≠ quiet.x) ∧ (∃ t, exec .dey quiet = .next t ∧ t.y ≠ quiet.y)
      ∧ (∃ t, exec .pha quiet = .next t ∧ t.sp ≠ quiet.sp) ∧ ∃ t, exec (.jmpAbs 0x1234#16) quiet = .next t ∧ t.pc ≠ quiet.pc := by
  refine ⟨?_, ?_, ?_, ?_, ?_, ?_, ?_⟩ <;> exact ⟨_, rfl, by decide⟩

theorem witness_RamIsMirrored :
    (0x1FFF#16 : Addr).toNat < 0x2000 ∧ (0x07FF#16 : Addr).toNat % 2048 = (0x1FFF#16 : Addr).toNat % 2048
      ∧ ¬ (0x2000#16 : Addr).toNat < 0x2000 := by decide

theorem witness_AddressesWithoutEffect :
    region 0x2000#16 = .ppu 0#3 ∧ region 0x3FFE#16 = .ppu 6#3 ∧ region 0x3FFA#16 = .ppu 2#3
      ∧ region 0x4000#16 = .apuChannel 0#5 ∧ region 0x4013#16 = .apuChannel 0x13#5 ∧ region 0x4014#16 = .oamDma
      ∧ region 0x4018#16 = .unmapped ∧ region 0x401F#16 = .unmapped ∧ region 0x4020#16 = .cartridge
      ∧ region 0x5FFF#16 = .cartridge ∧ quiet.peek 0x4020#16 = 0#8 ∧ quiet.peek 0x5FFF#16 = 0#8
      ∧ ((0x2000#16 : Addr).toNat % 8 = 0 ∧ (0x3FFE#16 : Addr).toNat % 8 = 6 ∧ (0x3FFA#16 : Addr).toNat % 8 = 2) := by decide

/-- The five addresses whose read changes the state of some machine (20_memory.md R50), one each. -/
theorem witness_AddressesWithoutEffect_sensitive :
    (let u := { quiet with ppu := { Ppu.reset with status := 0x80#8 } }; u.touch 0x2002#16 ≠ u)
      ∧ quiet.touch 0x2007#16 ≠ quiet
      ∧ (let u := { quiet with apu := { Apu.reset with frame := { Apu.reset.frame with irq := true } } }
        (u.touch 0x4015#16).apu.frame.irq ≠ u.apu.frame.irq)
      ∧ (quiet.touch 0x4016#16).ports ≠ quiet.ports ∧ (quiet.touch 0x4017#16).ports ≠ quiet.ports := by
  refine ⟨fun h => absurd (congrArg (·.ppu.status) h) (by decide), fun h => absurd (congrArg (·.ppu.v) h) (by decide), ?_, ?_, ?_⟩
    <;> decide

theorem witness_OamDmaCopies :
    (0x1F#8 : Byte).toNat < 0x20 ∧ 0x40 < (0x41#8 : Byte).toNat ∧ (0x4013#16 : Addr) ≠ 0x4014#16 ∧ (255 : Nat) < 256 := by decide

theorem witness_CartridgeWindow :
    0x8000 ≤ (0x8000#16 : Addr).toNat ∧ ((0 : Fin 32) : Nat) = ((0x8000#16 : Addr).toNat - 0x8000) / 1024
      ∧ ((31 : Fin 32) : Nat) = ((0xFFFF#16 : Addr).toNat - 0x8000) / 1024 ∧ 0x6000 ≤ (0x6000#16 : Addr).toNat
      ∧ (0x7FFF#16 : Addr).toNat < 0x8000 := by decide

theorem witness_ControllersShiftOutTheButtons : (0x01#8 : Byte).getLsbD 0 = true ∧ (0xFE#8 : Byte).getLsbD 0 = false := by decide

theorem witness_PpuMemoryReadsBack :
    quiet.ppuCell 0x3F10#14 = quiet.ppuCell 0x3F00#14 ∧ quiet.ppuCell 0x2400#14 = quiet.ppuCell 0x3000#14
      ∧ quiet.ppuCell 0x2400#14 ≠ quiet.ppuCell 0x2800#14 ∧ quiet.cart.chr8k = 0 := by decide +kernel

theorem witness_registers :
    (0x2000 ≤ (0x2000#16 : Addr).toNat ∧ (0x3FFF#16 : Addr).toNat < 0x4000)
      ∧ ((0x2000#16 : Addr).toNat % 8 = 0 ∧ (0x3FF9#16 : Addr).toNat % 8 = 1 ∧ (0x3FFA#16 : Addr).toNat % 8 = 2
        ∧ (0x3FFB#16 : Addr).toNat % 8 = 3 ∧ (0x3FFC#16 : Addr).toNat % 8 = 4 ∧ (0x3FFD#16 : Addr).toNat % 8 = 5
        ∧ (0x3FFE#16 : Addr).toNat % 8 = 6 ∧ (0x3FFF#16 : Addr).toNat % 8 = 7) := by decide

theorem witness_ScrollAndAddressWrites :
    quiet.ppu.w = false ∧ (writes [(0x2005#16, 0x00#8)] quiet).ppu.w = true := by decide

/-- The last address below the palette the round-trip clause of the data port reaches. -/
theorem witness_DataPort :
    let s := writes [(0x2006#16, 0x3E#8), (0x2006#16, 0xFE#8)] quiet
    (BitVec.ofNat 14 s.ppu.v.toNat).toNat + 1 < 0x3F00 ∧ s.ppu.ctrl.getLsbD 2 = false ∧ s.cart.chr8k = 0 := by decide

theorem witness_VBlankEdgeAndItsRaces :
    ∃ s : State, s.ppu.scanline = 261 ∧ s.ppu.cycle = 340 ∧ s.ppu.vblankLock = false ∧ s.ppu.ctrl.getLsbD 7 = true :=
  ⟨{ quiet with ppu := { Ppu.reset with scanline := 261, cycle := 340, ctrl := 0x80#8 } }, by decide⟩

theorem witness_FrameGeometry :
    (quiet.ppu.PositionOk ∧ quiet.ppu.rendering = false)
      ∧ ∃ s : State, s.ppu.PositionOk ∧ s.ppu.rendering = true ∧ s.ppu.position = 0 ∧ s.ppu.oddFrame = true :=
  ⟨⟨⟨by decide, by decide⟩, by decide⟩,
    ⟨{ quiet with ppu := { Ppu.reset with mask := 0x08#8, oddFrame := true } }, ⟨by decide, by decide⟩, by decide, by decide,
      by decide⟩⟩

/-- A Ppu with an opaque sprite 0 and an opaque background pixel at the columns 0 to 7. -/
def hitting : Ppu :=
  { Ppu.reset with
    mask := 0x1E#8, bgLo := 0xFFFF#16, slots := [{ x := 0#8, attr := 0#8, lo := 0xFF#8, hi := 0#8, isZero := true }] }

theorem witness_PixelPriority :
    (255 < 256) ∧ hitting.winner 7 = some { x := 0#8, attr := 0#8, lo := 0xFF#8, hi := 0#8, isZero := true }
      ∧ (hitting.backgroundBits 7).1 ≠ 0 ∧ (hitting.drawPixel 7).status = 0x40#8 ∧ hitting.winner 8 = none := by decide

/-- `quiet` one cycle before a clock of the frame sequencer, in the given mode and step. -/
def sequencer (fiveStep : Bool) (step : Nat) : State :=
  { quiet with apu := { Apu.reset with frame := { Apu.reset.frame with fiveStep := fiveStep, step := step, div := 7456 } } }

theorem witness_FrameSequencerSteps :
    quiet.apu.CountersOk quiet.params ∧ (sequencer false 3).apu.CountersOk Config.params
      ∧ (sequencer true 4).apu.CountersOk Config.params
      ∧ (sequencer false 3).clockFrameDivider.apu.frame.irq = true
      ∧ (sequencer true 4).clockFrameDivider.apu.frame.step = 0
      ∧ (sequencer false 0).clockFrameDivider.apu.frame.step = 1 := by
  refine ⟨⟨?_, ?_, ?_, ?_, ?_⟩, ⟨?_, ?_, ?_, ?_, ?_⟩, ⟨?_, ?_, ?_, ?_, ?_⟩, ?_, ?_, ?_⟩ <;> decide

theorem witness_SampleChannel :
    ∃ c : Dmc, c.bufferFull = false ∧ c.bytesRemaining ≠ 0#12 ∧ c.bytesRemaining.toNat = 1 ∧ c.loop = false ∧ c.irqEnable = true
      ∧ c.timer = 0#9 ∧ c.bitsRemaining.toNat ≤ 1 :=
  ⟨{ Apu.reset.dmc with bytesRemaining := 1#12, irqEnable := true, bitsRemaining := 1#4 }, by decide⟩

theorem witness_SampleChannel_clauses :
    (∃ c : Dmc, c.bufferFull = true) ∧ (∃ c : Dmc, c.bytesRemaining = 0#12)
      ∧ (∃ c : Dmc, c.bufferFull = false ∧ c.bytesRemaining.toNat = 1 ∧ c.loop = true)
      ∧ (∃ c : Dmc, c.bufferFull = false ∧ c.bytesRemaining.toNat = 2 ∧ c.curAddr.toNat = 0xFFFF)
      ∧ (∃ d : Dmc, d.timer ≠ 0#9) ∧ (∃ d : Dmc, d.timer = 0#9 ∧ d.silence = false ∧ d.shift.getLsbD 0 = true)
      ∧ ∃ d : Dmc, d.timer = 0#9 ∧ ¬ d.bitsRemaining.toNat ≤ 1 ∧ d.silence = true :=
  ⟨⟨{ Apu.reset.dmc with bufferFull := true }, by decide⟩, ⟨Apu.reset.dmc, by decide⟩,
    ⟨{ Apu.reset.dmc with bytesRemaining := 1#12, loop := true }, by decide⟩,
    ⟨{ Apu.reset.dmc with bytesRemaining := 2#12, curAddr := 0xFFFF#16 }, by decide⟩,
    ⟨{ Apu.reset.dmc with timer := 1#9 }, by decide⟩,
    ⟨{ Apu.reset.dmc with silence := false, shift := 1#8 }, by decide⟩, ⟨Apu.reset.dmc, by decide⟩⟩

theorem witness_SimpleBoardsSwitchBanks :
    1 ≤ (blankImage .unrom 1 0 .vertical).prg16k ∧ (Cart.construct (blankImage .nrom 1 0 .vertical)).mapper = .nrom
      ∧ (Cart.construct (blankImage .unrom 8 0 .vertical)).mapper = .unrom
      ∧ (Cart.construct (blankImage .gxrom 8 4 .vertical)).mapper = .gxrom := by decide +kernel

theorem witness_Mmc1SerialPort :
    (Cart.construct (blankImage .mmc1 8 0 .vertical)).mapper = .mmc1 Mmc1.reset ∧ Mmc1.reset.sr = 0#5
      ∧ Mmc1.reset.srCount = 0 ∧ (0x80#8 : Byte).getLsbD 7 = true
      ∧ ∀ b ∈ [0x7F#8, 0x00#8, 0x01#8, 0x00#8, (0x01#8 : Byte)], b.getLsbD 7 = false := by decide +kernel

theorem witness_Mmc3CounterCountsRises :
    (Cart.construct (blankImage .mmc3 8 1 .vertical)).mapper = .mmc3 Mmc3.reset ∧ Mmc3.reset.lastA12 = false
      ∧ 0x1000 ≤ (0x1000#14 : PpuAddr).toNat % 0x2000 ∧ ¬ 0x1000 ≤ (0x0FFF#14 : PpuAddr).toNat % 0x2000
      ∧ Mmc3.reset.irqReload = false ∧ 0 ≤ Mmc3.reset.irqCounter.toNat := by decide +kernel

/-- Power-on contents with nothing listed. -/
def blankContents : PowerOnContents where
  ram := []
  oam := []
  palette := []
  ntRam := []
  frameBuffer := []

theorem witness_InitialStatesMeetTheInvariants :
    ParamsOk Config.params ∧ (blankImage .mmc3 1 0 .vertical).Ok ∧ blankContents.Ok :=
  ⟨⟨⟨by decide, by decide⟩, by decide, by decide⟩, ⟨by decide, ⟨by decide, by decide⟩, ⟨by decide, by decide⟩, ⟨by decide, by decide⟩, ⟨by decide, by decide⟩⟩,
    ⟨by decide, by decide⟩, ⟨by decide, by decide⟩, ⟨by decide, by decide⟩, ⟨by decide, by decide⟩, ⟨by decide, by simp [blankContents]⟩⟩

theorem witness_LengthCountersAndStatus :
    (∀ k : Fin 4, (quiet.apu.counter k).count = 0#8 ∧ (quiet.apu.counter k).count.toNat ≤ 254) ∧ (3 : Fin 4) ≠ 0 := by
  decide

theorem witness_EveryStepKeepsTheInvariants :
    quiet.FlagsOk ∧ quiet.MemoriesOk ∧ quiet.ppu.PositionOk ∧ quiet.ppu.SpritesOk ∧ quiet.apu.CountersOk quiet.params
      ∧ quiet.apu.LengthsOk ∧ quiet.apu.dmc.AddressesOk ∧ quiet.cart.mapper.SerialOk ∧ ∃ t, step quiet = .next t := by
  refine ⟨⟨⟨by decide, by decide⟩, by decide, by decide⟩, ⟨⟨by decide, by decide⟩, ?_, ?_, ?_⟩, ⟨by decide, by decide⟩,
    ⟨by decide, by decide⟩, ?_, by unfold Apu.LengthsOk; decide, ⟨by decide, by decide⟩, trivial, ⟨_, rfl⟩⟩
  · refine ⟨?_, ?_, ?_, ?_, ?_⟩ <;> exact ⟨List.Pairwise.nil, by simp [quiet, State.reset, Ppu.reset]⟩
  · refine ⟨?_, ?_, ?_, ?_⟩ <;> exact ⟨List.Pairwise.nil, by simp [quiet, State.reset, Cart.empty]⟩
  · refine ⟨by decide, by decide, by decide⟩
  · refine ⟨?_, ?_, ?_, ?_, ?_⟩ <;> decide

end Sys2Proof.Tests
end

section
/-! The statement family of 00_scope.md: no step changes the hardware. Every operation of the machine is compared with the
state it starts from; `StepKeeps` then carries the comparison over a whole step. -/

namespace Sys2Proof.Machine

/-! ## The board: the part of the cartridge that no access changes (10_state.md R23) -/

/-- Equal ROM contents, bank counts, battery flag and kind of mapper. -/
def Cart.SameBoard (c d : Cart) : Prop :=
  d.prgRom = c.prgRom ∧ d.prg16k = c.prg16k ∧ d.chr8k = c.chr8k ∧ d.battery = c.battery ∧ d.mapper.kind = c.mapper.kind
    ∧ (c.chrIsRam = false → d.chr = c.chr)

theorem Cart.SameBoard.refl (c : Cart) : c.SameBoard c := ⟨rfl, rfl, rfl, rfl, rfl, fun _ => rfl⟩

theorem Cart.SameBoard.trans {c d e : Cart} (h : c.SameBoard d) (h' : d.SameBoard e) : c.SameBoard e := by
  obtain ⟨hrom, hprg, hchr8k, hbat, hkind, hchr⟩ := h
  obtain ⟨hrom', hprg', hchr8k', hbat', hkind', hchr'⟩ := h'
  refine ⟨hrom'.trans hrom, hprg'.trans hprg, hchr8k'.trans hchr8k, hbat'.trans hbat, hkind'.trans hkind, fun hram => ?_⟩
  have hram' : d.chrIsRam = false := by
    unfold Cart.chrIsRam at *
    rwa [hchr8k]
  exact (hchr' hram').trans (hchr hram)

theorem Cart.mmc1Write_kind (r : Mmc1) (a : Addr) (b : Byte) (c : Cart) : (c.mmc1Write r a b).mapper.kind = .mmc1 := by
  unfold Cart.mmc1Write
  dsimp only
  split
  · rw [Cart.mmc1Update_mapper]
    rfl
  · split
    · rw [Cart.mmc1Update_mapper]
      rfl
    · rfl

theorem Cart.mmc3Write_kind {c : Cart} (h : c.mapper.kind = .mmc3) (r : Mmc3) (a : Addr) (b : Byte) :
    (c.mmc3Write r a b).mapper.kind = .mmc3 := by
  unfold Cart.mmc3Write
  dsimp only
  split
  · split <;> rw [Cart.mmc3Update_mapper] <;> rfl
  · split
    · rfl
    · split <;> exact h
  · split <;> rfl
  · rfl

@[simp] theorem Cart.mapperWrite_kind (a : Addr) (b : Byte) (c : Cart) :
    (c.mapperWrite a b).mapper.kind = c.mapper.kind := by
  unfold Cart.mapperWrite
  split
  · rfl
  · simp
  · simp
  · rename_i r hr
    rw [Cart.mmc1Write_kind, hr]
    rfl
  · rename_i r hr
    have hkind : c.mapper.kind = .mmc3 := by rw [hr]; rfl
    rw [Cart.mmc3Write_kind hkind, hkind]

/-- A CPU write of the cartridge writes PRG-RAM or registers of the mapper. -/
theorem Cart.writePrg_sameBoard (a : Addr) (b : Byte) (c : Cart) : c.SameBoard (c.writePrg a b) := by
  unfold Cart.writePrg
  split
  · exact ⟨by simp, by simp, by simp, by simp, by simp, fun _ => by simp⟩
  · split <;> exact .refl c

/-- A PPU write of the cartridge changes `chr` only where it is RAM. -/
theorem Cart.writeChr_sameBoard (a : PpuAddr) (b : Byte) (c : Cart) : c.SameBoard (c.writeChr a b) := by
  unfold Cart.writeChr
  split
  · rename_i hram
    exact ⟨rfl, rfl, rfl, rfl, rfl, fun hrom => by simp [hram] at hrom⟩
  · exact .refl c

theorem State.observe_sameBoard (a : PpuAddr) (s : State) : s.cart.SameBoard (s.observe a).1 := by
  obtain ⟨m, hm, hkind⟩ := s.observe_eq a
  rw [hm]
  exact ⟨rfl, rfl, rfl, rfl, hkind, fun _ => rfl⟩

/-! ## The hardware: the board and the parameters (00_scope.md R4) -/

theorem sameHardware_iff {s t : State} : SameHardware s t ↔ s.cart.SameBoard t.cart ∧ t.params = s.params := by
  unfold SameHardware Cart.SameBoard
  tauto

theorem SameHardware.refl (s : State) : SameHardware s s := sameHardware_iff.mpr ⟨.refl _, rfl⟩

theorem SameHardware.trans {s t u : State} (h : SameHardware s t) (h' : SameHardware t u) : SameHardware s u := by
  rw [sameHardware_iff] at *
  exact ⟨h.1.trans h'.1, h'.2.trans h.2⟩

/-- The hardware depends on the cartridge and the parameters alone. -/
theorem SameHardware.congr {s t u : State} (h : SameHardware s t) (hcart : u.cart = t.cart) (hparams : u.params = t.params) :
    SameHardware s u := by
  rw [sameHardware_iff] at *
  rwa [hcart, hparams]

/-- An update made only under a condition. -/
theorem SameHardware.ite {c : Prop} [Decidable c] {s t u : State} (ht : SameHardware s t) (hu : SameHardware s u) :
    SameHardware s (if c then t else u) := by
  split <;> assumption

/-! ## Bus accesses -/

theorem State.touchPpu_sameHardware (a : PpuAddr) (s : State) : SameHardware s (s.touchPpu a) :=
  sameHardware_iff.mpr ⟨s.observe_sameBoard a, rfl⟩

theorem State.writePpu_sameHardware (a : PpuAddr) (b : Byte) (s : State) : SameHardware s (s.writePpu a b) := by
  unfold State.writePpu
  split
  · exact sameHardware_iff.mpr ⟨(s.observe_sameBoard a).trans (Cart.writeChr_sameBoard a b _), rfl⟩
  · split
    · dsimp only
      split <;> exact .refl s
    · exact .refl s

theorem State.touch_sameHardware (a : Addr) (s : State) : SameHardware s (s.touch a) := by
  unfold State.touch
  split
  · unfold State.touchPpuRegister
    split
    · exact .refl s
    · exact (s.touchPpu_sameHardware _).congr rfl rfl
    · exact .refl s
  all_goals exact .refl s

theorem State.writePpuRegister_sameHardware (r : BitVec 3) (b : Byte) (s : State) :
    SameHardware s (s.writePpuRegister r b) := by
  unfold State.writePpuRegister
  split
  case h_7 => exact (s.writePpu_sameHardware _ b).congr rfl rfl
  all_goals exact .refl s

theorem oamDmaCopy_sameHardware (page : Byte) (k : Nat) (s : State) : SameHardware s (oamDmaCopy page k s) := by
  induction k generalizing s with
  | zero => exact .refl s
  | succ k ih => exact ((s.touch_sameHardware _).congr rfl rfl).trans (ih _)

theorem State.oamDma_sameHardware (page : Byte) (s : State) : SameHardware s (s.oamDma page).1 := by
  have hcopied := oamDmaCopy_sameHardware page 256 s
  unfold State.oamDma
  -- named, so that no `rfl` runs the 256 rounds of the copy
  generalize oamDmaCopy page 256 s = copied at *
  exact hcopied.congr rfl rfl

theorem State.memWrite_sameHardware (a : Addr) (b : Byte) (s : State) : SameHardware s (s.memWrite a b).1 := by
  unfold State.memWrite
  split
  case h_2 => exact s.writePpuRegister_sameHardware _ b
  case h_4 => exact s.oamDma_sameHardware b
  case h_9 => exact sameHardware_iff.mpr ⟨Cart.writePrg_sameBoard a b s.cart, rfl⟩
  all_goals exact .refl s

/-! ## The clock of the APU: its one way out is the sample DMA, a read (62_apu.md R326) -/

theorem State.fillBuffer_sameHardware (s : State) : SameHardware s s.fillBuffer := by
  unfold State.fillBuffer
  exact .ite ((s.touch_sameHardware _).congr rfl rfl) (.refl s)

theorem State.apuCycle_sameHardware (s : State) : SameHardware s s.apuCycle := by
  have hbefore : SameHardware s s.clockFrameDivider.clockTriangle := .refl s
  have hfilled := hbefore.trans (State.fillBuffer_sameHardware _)
  unfold State.apuCycle State.clockTimers State.clockDmc
  exact hfilled.congr rfl rfl

/-! ## The clock of the PPU: it reaches the cartridge through its reads alone (61_ppu.md R281, R284) -/

theorem State.fetchBackground_sameHardware (c : Nat) (s : State) : SameHardware s (s.fetchBackground c) := by
  unfold State.fetchBackground
  split
  · split
    case h_5 | h_6 => exact .refl s
    all_goals exact (s.touchPpu_sameHardware _).congr rfl rfl
  · exact .refl s

theorem State.touchPair_sameHardware (a : PpuAddr) (s : State) : SameHardware s (s.touchPair a) :=
  (s.touchPpu_sameHardware a).trans (State.touchPpu_sameHardware _ _)

theorem fetchSlots_sameHardware (k : Nat) (l : List SecondarySprite) (s : State) : SameHardware s (fetchSlots k l s).2 := by
  induction k generalizing l s with
  | zero => exact .refl s
  | succ k ih =>
    cases l with
    | nil => exact (s.touchPair_sameHardware _).trans (ih ..)
    | cons e rest => exact (s.touchPair_sameHardware _).trans (ih ..)

theorem State.fetchSprites_sameHardware (s : State) : SameHardware s s.fetchSprites :=
  (fetchSlots_sameHardware 8 s.ppu.secondary s).congr rfl rfl

theorem State.lineEndWork_sameHardware (c : Nat) (s : State) : SameHardware s (s.lineEndWork c) := by
  unfold State.lineEndWork
  exact .ite (.refl s) (.ite (State.fetchSprites_sameHardware { s with ppu := _ }) (.refl s))

theorem State.vblankWork_sameHardware (s : State) : SameHardware s s.vblankWork := by
  unfold State.vblankWork
  exact .ite (.refl s) (.ite (.refl s) (.refl s))

theorem State.preRenderWork_sameHardware (s : State) : SameHardware s s.preRenderWork := by
  unfold State.preRenderWork
  extract_lets c _ cleared worked
  have hcleared : SameHardware s cleared := .ite (.refl s) (.refl s)
  have hshifted : SameHardware s { cleared with ppu := cleared.ppu.shiftBackground c } := hcleared
  have hfetched := hshifted.trans (State.fetchBackground_sameHardware c _)
  have hworked : SameHardware s worked := hfetched.trans (State.lineEndWork_sameHardware c _)
  exact .ite (.ite hworked hworked) hcleared

theorem State.visibleWork_sameHardware (row : Nat) (s : State) : SameHardware s (s.visibleWork row) := by
  unfold State.visibleWork
  extract_lets c on shifted drawn fetched evaluated finished
  have hshifted : SameHardware s shifted := .ite (.refl s) (.refl s)
  have hdrawn : SameHardware s drawn := .ite hshifted hshifted
  have hfetched : SameHardware s fetched := .ite (hdrawn.trans (State.fetchBackground_sameHardware c _)) hdrawn
  have hevaluated : SameHardware s evaluated := .ite hfetched hfetched
  have hfinished : SameHardware s finished := .ite (hevaluated.trans (State.lineEndWork_sameHardware c _)) hevaluated
  exact .ite hfinished hfinished

theorem State.ppuWork_sameHardware (s : State) : SameHardware s s.ppuWork := by
  unfold State.ppuWork
  exact .ite s.vblankWork_sameHardware
    (.ite s.preRenderWork_sameHardware (.ite (s.visibleWork_sameHardware _) (.refl s)))

theorem State.ppuTick_sameHardware (s : State) : SameHardware s s.ppuTick :=
  State.ppuWork_sameHardware { s with ppu := s.ppu.advance s.params.ppuLayout }

/-! ## A step -/

/-- Having the hardware of `s` is kept by every bus access and every tick of a device. -/
theorem sameHardware_stepKeeps (s : State) : StepKeeps (SameHardware s) where
  cpu := fun ⟨_, _, _, _, hcart, _, hparams, _⟩ h => h.congr hcart hparams
  touch := fun a _ h => h.trans (State.touch_sameHardware a _)
  write := fun a b _ h => h.trans (State.memWrite_sameHardware a b _)
  pending := fun _ _ h => h
  apu := fun h => h.trans (State.apuCycle_sameHardware _)
  ppu := fun h => h.trans (State.ppuTick_sameHardware _)

/-- Settles O60: having the hardware of the first state is an invariant of the operations a step is made of. -/
theorem noStepChangesTheHardware : Obligations.NoStepChangesTheHardware := by
  unfold Obligations.NoStepChangesTheHardware
  exact fun s _ ht => (sameHardware_stepKeeps s).step (.refl s) ht

end Sys2Proof.Machine
end

section
/-! The state family, tier 3: the clocks of the devices, and the form of the memories over a whole step. -/

namespace Sys2Proof.Machine

/-! ## The PPU's own memories through the work of a cycle (61_ppu.md R275 to R288) -/

theorem Ppu.MemoriesOk.advance {p : Ppu} (h : p.MemoriesOk) (layout : Config.PpuLayout) : (p.advance layout).MemoriesOk := by
  unfold Ppu.advance
  split
  · exact h
  · split <;> exact h

theorem Ppu.MemoriesOk.shiftBackground {p : Ppu} (h : p.MemoriesOk) (c : Nat) : (p.shiftBackground c).MemoriesOk := by
  unfold Ppu.shiftBackground
  dsimp only
  split <;> split <;> exact h

theorem Ppu.MemoriesOk.evaluateSprites {p : Ppu} (h : p.MemoriesOk) (row : Nat) : (p.evaluateSprites row).MemoriesOk := h

/-- The line buffer has a location for each of the 256 columns. -/
theorem Ppu.MemoriesOk.drawPixel {p : Ppu} (h : p.MemoriesOk) {x : Nat} (hx : x < 256) : (p.drawPixel x).MemoriesOk := by
  obtain ⟨hoam, hpalette, hnt, hframe, hline⟩ := h
  exact ⟨hoam, hpalette, hnt, hframe, Sparse.wf_write hx hline⟩

/-- The frame buffer has a location for each of the 240 screen rows. -/
theorem Ppu.MemoriesOk.flushRow {p : Ppu} (h : p.MemoriesOk) {row : Nat} (hrow : row < 240) :
    (p.flushRow row).MemoriesOk := by
  obtain ⟨hoam, hpalette, hnt, hframe, hline⟩ := h
  exact ⟨hoam, hpalette, hnt, Sparse.wf_write hrow hframe, hline⟩

/-! ## Preservation by the clocks packaged once -/

/-- `Q` is kept by what the clocks of the devices do: reads of either bus, changes of the APU and the pending slot, and
of the PPU where its memories keep their form. -/
structure ClockKeeps (Q : State → Prop) : Prop where
  touch : ∀ (a : Addr) {s : State}, Q s → Q (s.touch a)
  touchPpu : ∀ (a : PpuAddr) {s : State}, Q s → Q (s.touchPpu a)
  apu : ∀ (u : Apu) (k : Option Interrupt) {s : State}, Q s → Q { s with apu := u, pending := k }
  ppu : ∀ {p : Ppu} {s : State}, (s.ppu.MemoriesOk → p.MemoriesOk) → Q s → Q { s with ppu := p }

/-- An update made only under a condition. -/
theorem holds_ite {Q : State → Prop} {c : Prop} [Decidable c] {t u : State} (ht : c → Q t) (hu : Q u) :
    Q (if c then t else u) := by
  split
  · exact ht ‹_›
  · exact hu

namespace ClockKeeps

variable {Q : State → Prop} (hk : ClockKeeps Q)
include hk

theorem fillBuffer {s : State} (h : Q s) : Q s.fillBuffer :=
  holds_ite (fun _ => hk.apu _ _ (hk.touch _ h)) h

theorem apuCycle {s : State} (h : Q s) : Q s.apuCycle := by
  have hframe : Q s.clockFrameDivider := hk.apu _ _ h
  have hfilled : Q s.clockFrameDivider.clockTriangle.fillBuffer := hk.fillBuffer (hk.apu _ _ hframe)
  exact hk.apu _ _ (hk.apu _ _ hfilled)

theorem apuStep (n : Nat) {s : State} (h : Q s) : Q (s.apuStep n) := by
  induction n generalizing s with
  | zero => exact h
  | succ n ih => exact ih (hk.apuCycle h)

theorem fetchBackground (c : Nat) {s : State} (h : Q s) : Q (s.fetchBackground c) := by
  unfold State.fetchBackground
  refine holds_ite (fun _ => ?_) h
  split
  case h_5 => exact hk.ppu id h
  case h_6 => exact h
  all_goals exact hk.ppu id (hk.touchPpu _ h)

theorem touchPair (a : PpuAddr) {s : State} (h : Q s) : Q (s.touchPair a) := hk.touchPpu _ (hk.touchPpu _ h)

theorem fetchSlots (k : Nat) (l : List SecondarySprite) {s : State} (h : Q s) : Q (fetchSlots k l s).2 := by
  induction k generalizing l s with
  | zero => exact h
  | succ k ih =>
    cases l with
    | nil => exact ih _ (hk.touchPair _ h)
    | cons e rest => exact ih _ (hk.touchPair _ h)

theorem fetchSprites {s : State} (h : Q s) : Q s.fetchSprites := hk.ppu id (hk.fetchSlots 8 s.ppu.secondary h)

theorem lineEndWork (c : Nat) {s : State} (h : Q s) : Q (s.lineEndWork c) :=
  holds_ite (fun _ => hk.ppu id h) (holds_ite (fun _ => hk.fetchSprites (hk.ppu id h)) h)

theorem vblankWork {s : State} (h : Q s) : Q s.vblankWork :=
  holds_ite (fun _ => hk.ppu id h) (holds_ite (fun _ => hk.apu _ _ h) h)

theorem preRenderWork {s : State} (h : Q s) : Q s.preRenderWork := by
  unfold State.preRenderWork
  extract_lets c _ cleared worked
  have hcleared : Q cleared := holds_ite (fun _ => hk.ppu id h) h
  have hshifted : Q { cleared with ppu := cleared.ppu.shiftBackground c } := hk.ppu (·.shiftBackground c) hcleared
  have hworked : Q worked := hk.lineEndWork c (hk.fetchBackground c hshifted)
  exact holds_ite (fun _ => holds_ite (fun _ => hk.ppu id hworked) hworked) hcleared

theorem visibleWork {row : Nat} (hrow : row < 240) {s : State} (h : Q s) : Q (s.visibleWork row) := by
  unfold State.visibleWork
  extract_lets c on shifted drawn fetched evaluated finished
  have hshifted : Q shifted := holds_ite (fun _ => hk.ppu (·.shiftBackground c) h) h
  have hdrawn : Q drawn := holds_ite (fun hc => hk.ppu (·.drawPixel (by omega)) hshifted) hshifted
  have hfetched : Q fetched := holds_ite (fun _ => hk.fetchBackground c hdrawn) hdrawn
  have hevaluated : Q evaluated := holds_ite (fun _ => hk.ppu (·.evaluateSprites row) hfetched) hfetched
  have hfinished : Q finished := holds_ite (fun _ => hk.lineEndWork c hevaluated) hevaluated
  exact holds_ite (fun _ => hk.ppu (·.flushRow hrow) hfinished) hfinished

theorem ppuWork {s : State} (h : Q s) : Q s.ppuWork := by
  unfold State.ppuWork
  simp only [Config.PpuLayout.vblLine_eq, Config.PpuLayout.preLine_eq, Config.PpuLayout.firstVisible_eq]
  exact holds_ite (fun _ => hk.vblankWork h)
    (holds_ite (fun _ => hk.preRenderWork h) (holds_ite (fun hline => hk.visibleWork (by omega) h) h))

theorem ppuTick {s : State} (h : Q s) : Q s.ppuTick := hk.ppuWork (hk.ppu (·.advance _) h)

theorem ppuStep (n : Nat) {s : State} (h : Q s) : Q (s.ppuStep n) := by
  induction n generalizing s with
  | zero => exact h
  | succ n ih => exact ih (hk.ppuTick h)

/-- The devices' part of a round keeps what each thing the clocks do keeps (63_cartridge_bus_driver.md R375). -/
theorem advanceDevices {s : State} (h : Q s) : Q s.advanceDevices := hk.ppuStep _ (hk.apuStep _ h)

end ClockKeeps

/-! ## The memories over a step -/

theorem memoriesOk_clockKeeps : ClockKeeps State.MemoriesOk where
  touch := fun a _ h => h.touch a
  touchPpu := fun a _ h => h.touchPpu a
  apu := fun _ _ _ h => h
  ppu := fun hp ⟨hram, hppu, hcart⟩ => ⟨hram, hp hppu, hcart⟩

/-- Bus accesses and clocks together: the form of the memories is kept by everything a step does. -/
theorem memoriesOk_stepKeeps : StepKeeps State.MemoriesOk where
  toBusKeeps := memoriesOk_busKeeps
  pending := fun _ _ h => h
  apu := memoriesOk_clockKeeps.apuCycle
  ppu := memoriesOk_clockKeeps.ppuTick

/-- Settles O58: the form of the memories and the range of the bank indexes is an invariant of the operations a step is
made of. -/
theorem everyStepKeepsTheMemories : Obligations.EveryStepKeepsTheMemories := by
  unfold Obligations.EveryStepKeepsTheMemories
  exact fun _ _ h ht => memoriesOk_stepKeeps.step h ht

end Sys2Proof.Machine
end

section
/-! The state family, tiers 2 and 3: what an instruction may write of the CPU's registers, P and PC (10_state.md R10 to R15),
said once for every instruction; from it, the flag byte over a whole step and the writers of each flag and register. -/

namespace Sys2Proof.Machine

/-! ## Equal CPU registers: bus accesses and clocks touch none of them -/

/-- `t` has the registers, P and PC of `s`. -/
structure SameCpu (s t : State) : Prop where
  a : t.a = s.a
  x : t.x = s.x
  y : t.y = s.y
  sp : t.sp = s.sp
  p : t.p = s.p
  pc : t.pc = s.pc

namespace SameCpu

theorem refl (s : State) : SameCpu s s := ⟨rfl, rfl, rfl, rfl, rfl, rfl⟩

theorem trans {s t u : State} (h : SameCpu s t) (h' : SameCpu t u) : SameCpu s u :=
  ⟨h'.a.trans h.a, h'.x.trans h.x, h'.y.trans h.y, h'.sp.trans h.sp, h'.p.trans h.p, h'.pc.trans h.pc⟩

theorem charge (n : Nat) (s : State) : SameCpu s (s.charge n) := ⟨rfl, rfl, rfl, rfl, rfl, rfl⟩

theorem touch (a : Addr) (s : State) : SameCpu s (s.touch a) := by constructor <;> simp

theorem store (a : Addr) (b : Byte) (s : State) : SameCpu s (s.store a b) := by constructor <;> simp

theorem readOperand (o : Source) (base : Nat) (s : State) : SameCpu s (s.readOperand o base).2 := by
  cases o with
  | imm d => exact charge base s
  | mem o => exact (charge _ s).trans (touch _ _)

theorem writeOperand (o : MemOperand) (base : Nat) (v : Byte) (s : State) : SameCpu s (s.writeOperand o base v) :=
  (charge base s).trans (store _ v _)

theorem modifyOperand (o : MemOperand) (base : Nat) (f : Byte → Byte) (s : State) :
    SameCpu s (s.modifyOperand o base f).2 :=
  ((charge base s).trans (touch _ _)).trans (store _ _ _)

theorem readIndirect (a : Addr) (s : State) : SameCpu s (s.readIndirect a).2 := (touch _ s).trans (touch _ _)

end SameCpu

/-- The devices do not reach into the CPU: an interrupt request stands in the pending slot until the next step. -/
theorem sameCpu_clockKeeps (s : State) : ClockKeeps (SameCpu s) where
  touch := fun a _ h => h.trans (.touch a _)
  touchPpu := fun _ _ h => h.trans ⟨rfl, rfl, rfl, rfl, rfl, rfl⟩
  apu := fun _ _ _ h => h.trans ⟨rfl, rfl, rfl, rfl, rfl, rfl⟩
  ppu := fun _ h => h.trans ⟨rfl, rfl, rfl, rfl, rfl, rfl⟩

theorem State.advanceDevices_sameCpu (s : State) : SameCpu s s.advanceDevices :=
  (sameCpu_clockKeeps s).advanceDevices (.refl s)

/-! ## Footprints -/

/-- What an operation may write of X, Y, S, PC and P, the last as the numbers of the bits; every operation may write A. The
default is what most instructions write: N, Z and C. -/
structure Footprint where
  x : Bool := false
  y : Bool := false
  sp : Bool := false
  pc : Bool := false
  flags : List Nat := [7, 1, 0]

/-- From `s` to `t` the CPU changed within the footprint. -/
structure Footprint.Covers (f : Footprint) (s t : State) : Prop where
  x : f.x = false → t.x = s.x
  y : f.y = false → t.y = s.y
  sp : f.sp = false → t.sp = s.sp
  pc : f.pc = false → t.pc = s.pc
  flags : ∀ j, j ∉ f.flags → t.p.getLsbD j = s.p.getLsbD j

/-- The bus accesses before an update do not widen its footprint. -/
theorem SameCpu.covers {f : Footprint} {s u t : State} (h : SameCpu s u) (h' : f.Covers u t) : f.Covers s t where
  x := fun hf => (h'.x hf).trans h.x
  y := fun hf => (h'.y hf).trans h.y
  sp := fun hf => (h'.sp hf).trans h.sp
  pc := fun hf => (h'.pc hf).trans h.pc
  flags := fun j hj => by rw [h'.flags j hj, h.p]

theorem SameCpu.within {s t : State} (h : SameCpu s t) (f : Footprint) : f.Covers s t :=
  ⟨fun _ => h.x, fun _ => h.y, fun _ => h.sp, fun _ => h.pc, fun _ _ => by rw [h.p]⟩

/-- The bits of P outside N, Z and C after `SetNZ`. -/
theorem putNZ_kept {v p : Byte} {j : Nat} (h : j ∉ [7, 1, 0]) : (putNZ v p).getLsbD j = p.getLsbD j :=
  putNZ_other fun hj => h (List.mem_append_left [0] hj)

/-- The bits of P after one flag was put. -/
theorem putFlag_kept {i j : Nat} {b : Bool} {p : Byte} {flags : List Nat} (hi : i ∈ flags) (h : j ∉ flags) :
    (putFlag i b p).getLsbD j = p.getLsbD j := by
  rw [getLsbD_putFlag, if_neg fun hji : j = i ∧ i < 8 => h (hji.1 ▸ hi)]

/-- P as a whole may have been written. -/
theorem allFlags_kept {p q : Byte} {j : Nat} (h : j ∉ [7, 6, 5, 4, 3, 2, 1, 0]) : p.getLsbD j = q.getLsbD j := by
  have hj : 8 ≤ j := by
    simp only [List.mem_cons, List.not_mem_nil, or_false] at h
    omega
  rw [BitVec.getLsbD_of_ge p j hj, BitVec.getLsbD_of_ge q j hj]

section Operations

variable (s : State) (base : Nat)

theorem State.setNZ_covers (v : Byte) : Footprint.Covers {} s (s.setNZ v) :=
  ⟨fun _ => rfl, fun _ => rfl, fun _ => rfl, fun _ => rfl, fun _ => putNZ_kept⟩

theorem State.setC_setNZ_covers (c : Bool) (v : Byte) : Footprint.Covers {} s ((s.setC c).setNZ v) :=
  ⟨fun _ => rfl, fun _ => rfl, fun _ => rfl, fun _ => rfl, fun _ => putNZ_putC_other⟩

theorem State.adc_covers (m : Byte) : Footprint.Covers { flags := [7, 6, 1, 0] } s (s.adc m) :=
  ⟨fun _ => rfl, fun _ => rfl, fun _ => rfl, fun _ => rfl, fun _ => putAlu_other⟩

theorem State.sbc_covers (m : Byte) : Footprint.Covers { flags := [7, 6, 1, 0] } s (s.sbc m) :=
  ⟨fun _ => rfl, fun _ => rfl, fun _ => rfl, fun _ => rfl, fun _ => putAlu_other⟩

theorem State.loadA_covers (o : Source) : Footprint.Covers {} s (s.loadA o base) :=
  (SameCpu.readOperand o base s).covers ⟨fun _ => rfl, fun _ => rfl, fun _ => rfl, fun _ => rfl, fun _ => putNZ_kept⟩

theorem State.loadX_covers (o : Source) : Footprint.Covers { x := true } s (s.loadX o base) :=
  (SameCpu.readOperand o base s).covers ⟨nofun, fun _ => rfl, fun _ => rfl, fun _ => rfl, fun _ => putNZ_kept⟩

theorem State.loadY_covers (o : Source) : Footprint.Covers { y := true } s (s.loadY o base) :=
  (SameCpu.readOperand o base s).covers ⟨fun _ => rfl, nofun, fun _ => rfl, fun _ => rfl, fun _ => putNZ_kept⟩

theorem State.loadAX_covers (o : MemOperand) : Footprint.Covers { x := true } s (s.loadAX o base) :=
  (SameCpu.readOperand (.mem o) base s).covers
    ⟨nofun, fun _ => rfl, fun _ => rfl, fun _ => rfl, fun _ => putNZ_kept⟩

theorem State.logicOperand_covers (op : Byte → Byte → Byte) (o : Source) :
    Footprint.Covers {} s (s.logicOperand op o base) :=
  (SameCpu.readOperand o base s).covers ⟨fun _ => rfl, fun _ => rfl, fun _ => rfl, fun _ => rfl, fun _ => putNZ_kept⟩

theorem State.compareOperand_covers (r : Byte) (o : Source) : Footprint.Covers {} s (s.compareOperand r o base) :=
  (SameCpu.readOperand o base s).covers
    ⟨fun _ => rfl, fun _ => rfl, fun _ => rfl, fun _ => rfl, fun _ => putNZ_putC_other⟩

theorem State.bitOperand_covers (o : Source) : Footprint.Covers { flags := [7, 6, 1, 0] } s (s.bitOperand o base) :=
  (SameCpu.readOperand o base s).covers ⟨fun _ => rfl, fun _ => rfl, fun _ => rfl, fun _ => rfl, fun _ hj =>
    ((putFlag_kept (by decide) hj).trans (putFlag_kept (by decide) hj)).trans (putFlag_kept (by decide) hj)⟩

theorem State.adcOperand_covers (o : Source) : Footprint.Covers { flags := [7, 6, 1, 0] } s (s.adcOperand o base) :=
  (SameCpu.readOperand o base s).covers (State.adc_covers _ _)

theorem State.sbcOperand_covers (o : Source) : Footprint.Covers { flags := [7, 6, 1, 0] } s (s.sbcOperand o base) :=
  (SameCpu.readOperand o base s).covers (State.sbc_covers _ _)

theorem State.bumpOperand_covers (delta : Byte) (o : MemOperand) : Footprint.Covers {} s (s.bumpOperand delta o base) :=
  (SameCpu.modifyOperand o base (fun m => m + delta) s).covers (State.setNZ_covers _ _)

theorem State.shiftAcc_covers (f : Shift) : Footprint.Covers {} s (s.shiftAcc f base) :=
  ⟨fun _ => rfl, fun _ => rfl, fun _ => rfl, fun _ => rfl, fun _ => putNZ_putC_other⟩

theorem State.shiftOperand_covers (f : Shift) (o : MemOperand) : Footprint.Covers {} s (s.shiftOperand f o base) :=
  (SameCpu.modifyOperand o base (fun m => (f m (flagC s.p)).1) s).covers (State.setC_setNZ_covers _ _ _)

theorem State.shiftThenLogic_covers (f : Shift) (op : Byte → Byte → Byte) (o : MemOperand) :
    Footprint.Covers {} s (s.shiftThenLogic f op o base) :=
  (SameCpu.modifyOperand o base (fun m => (f m (flagC s.p)).1) s).covers
    ⟨fun _ => rfl, fun _ => rfl, fun _ => rfl, fun _ => rfl, fun _ => putNZ_putC_other⟩

theorem State.rotateThenAdc_covers (o : MemOperand) :
    Footprint.Covers { flags := [7, 6, 1, 0] } s (s.rotateThenAdc o base) :=
  (SameCpu.modifyOperand o base (fun m => (shiftRor m (flagC s.p)).1) s).covers
    ⟨fun _ => rfl, fun _ => rfl, fun _ => rfl, fun _ => rfl, fun _ hj =>
      (putAlu_other hj).trans (putFlag_kept (by decide) hj)⟩

theorem State.decrementThenCompare_covers (o : MemOperand) : Footprint.Covers {} s (s.decrementThenCompare o base) :=
  (SameCpu.modifyOperand o base (fun m => m - 1#8) s).covers
    ⟨fun _ => rfl, fun _ => rfl, fun _ => rfl, fun _ => rfl, fun _ => putNZ_putC_other⟩

theorem State.incrementThenSbc_covers (o : MemOperand) :
    Footprint.Covers { flags := [7, 6, 1, 0] } s (s.incrementThenSbc o base) :=
  (SameCpu.modifyOperand o base (fun m => m + 1#8) s).covers (State.sbc_covers _ _)

theorem State.branch_covers (cond : Bool) (d : Byte) : Footprint.Covers { pc := true } s (s.branch cond d) := by
  unfold State.branch
  split
  · exact ⟨fun _ => rfl, fun _ => rfl, fun _ => rfl, nofun, fun _ _ => rfl⟩
  · exact (SameCpu.charge 2 s).within _

theorem State.putFlag_covers (n i : Nat) (b : Bool) {f : Footprint} (hi : i ∈ f.flags) :
    f.Covers s { s.charge n with p := putFlag i b s.p } :=
  ⟨fun _ => rfl, fun _ => rfl, fun _ => rfl, fun _ => rfl, fun _ hj => putFlag_kept hi hj⟩

theorem State.push_covers (n : Nat) (v : Byte) : Footprint.Covers { sp := true } s ((s.charge n).push v) := by
  rw [State.push_eq]
  exact ⟨fun _ => rfl, fun _ => rfl, nofun, fun _ => rfl, fun _ _ => rfl⟩

theorem State.enter_covers {vector : Addr} (h : 0x8000 ≤ vector.toNat) (hv : vector.toNat ≠ 0xFFFF) (ret : Addr)
    (pushed : Byte) : Footprint.Covers { sp := true, pc := true, flags := [2] } s (s.enter vector ret pushed) := by
  rw [State.enter_eq h hv]
  exact ⟨fun _ => rfl, fun _ => rfl, nofun, nofun, fun _ => putFlag_kept List.mem_cons_self⟩

theorem State.leave_covers :
    Footprint.Covers { sp := true, pc := true, flags := [7, 6, 5, 4, 3, 2, 1, 0] } s s.leave := by
  rw [State.leave_eq]
  exact ⟨fun _ => rfl, fun _ => rfl, nofun, nofun, fun _ => allFlags_kept⟩

theorem execPla_covers : HoldsNext (Footprint.Covers { sp := true } s) (execPla s) := by
  unfold execPla
  rw [State.pull_eq]
  exact ⟨fun _ => rfl, fun _ => rfl, nofun, fun _ => rfl, fun _ => putNZ_kept⟩

theorem execPlp_covers :
    HoldsNext (Footprint.Covers { sp := true, flags := [7, 6, 5, 4, 3, 2, 1, 0] } s) (execPlp s) := by
  unfold execPlp
  rw [State.pull_eq]
  exact ⟨fun _ => rfl, fun _ => rfl, nofun, fun _ => rfl, fun _ => allFlags_kept⟩

theorem execJsr_covers (a : Addr) : HoldsNext (Footprint.Covers { sp := true, pc := true } s) (execJsr a s) := by
  unfold execJsr
  rw [State.pushAddr_eq]
  exact ⟨fun _ => rfl, fun _ => rfl, nofun, nofun, fun _ _ => rfl⟩

theorem execRts_covers : HoldsNext (Footprint.Covers { sp := true, pc := true } s) (execRts s) := by
  unfold execRts
  rw [State.pullAddr_eq]
  exact ⟨fun _ => rfl, fun _ => rfl, nofun, nofun, fun _ _ => rfl⟩

theorem execJmpInd_covers (a : Addr) : HoldsNext (Footprint.Covers { pc := true } s) (execJmpInd a s) :=
  ((SameCpu.charge 5 s).trans (.readIndirect a _)).covers
    ⟨fun _ => rfl, fun _ => rfl, fun _ => rfl, nofun, fun _ _ => rfl⟩

end Operations

/-! ## The footprint of each instruction -/

/-- What each instruction may write, as the tables of the CPU state have it (10_state.md R10 to R14). -/
def footprintOf : Instr → Footprint
  | .ldxImm _ | .ldxZp _ | .ldxZpy _ | .ldxAbs _ | .ldxAby _
  | .laxZp _ | .laxZpy _ | .laxAbs _ | .laxAby _ | .laxIzx _ | .laxIzy _
  | .tax | .tsx | .inx | .dex => { x := true }
  | .ldyImm _ | .ldyZp _ | .ldyZpx _ | .ldyAbs _ | .ldyAbx _ | .tay | .iny | .dey => { y := true }
  | .txs | .pha | .php | .pla => { sp := true }
  | .plp => { sp := true, flags := [7, 6, 5, 4, 3, 2, 1, 0] }
  | .rti => { sp := true, pc := true, flags := [7, 6, 5, 4, 3, 2, 1, 0] }
  | .brk => { sp := true, pc := true, flags := [2] }
  | .jsr _ | .rts => { sp := true, pc := true }
  | .jmpAbs _ | .jmpInd _ | .bpl _ | .bmi _ | .bvc _ | .bvs _ | .bcc _ | .bcs _ | .bne _ | .beq _ => { pc := true }
  | .cli | .sei => { flags := [2] }
  | .cld | .sed => { flags := [3] }
  | .clv => { flags := [6] }
  | .adcImm _ | .adcZp _ | .adcZpx _ | .adcAbs _ | .adcAbx _ | .adcAby _ | .adcIzx _ | .adcIzy _
  | .sbcImm _ | .sbcZp _ | .sbcZpx _ | .sbcAbs _ | .sbcAbx _ | .sbcAby _ | .sbcIzx _ | .sbcIzy _ | .sbcImmEB _
  | .bitZp _ | .bitAbs _
  | .rraZp _ | .rraZpx _ | .rraAbs _ | .rraAbx _ | .rraAby _ | .rraIzx _ | .rraIzy _
  | .iscZp _ | .iscZpx _ | .iscAbs _ | .iscAbx _ | .iscAby _ | .iscIzx _ | .iscIzy _ => { flags := [7, 6, 1, 0] }
  | _ => {}

/-- Every instruction stays within its footprint. -/
theorem exec_covers (i : Instr) (s : State) : HoldsNext ((footprintOf i).Covers s) (exec i s) :=
  match i with
  | .ldaImm _ | .ldaZp _ | .ldaZpx _ | .ldaAbs _ | .ldaAbx _ | .ldaAby _ | .ldaIzx _ | .ldaIzy _ => s.loadA_covers _ _
  | .ldxImm _ | .ldxZp _ | .ldxZpy _ | .ldxAbs _ | .ldxAby _ => s.loadX_covers _ _
  | .ldyImm _ | .ldyZp _ | .ldyZpx _ | .ldyAbs _ | .ldyAbx _ => s.loadY_covers _ _
  | .laxZp _ | .laxZpy _ | .laxAbs _ | .laxAby _ | .laxIzx _ | .laxIzy _ => s.loadAX_covers _ _
  | .staZp _ | .staZpx _ | .staAbs _ | .staAbx _ | .staAby _ | .staIzx _ | .staIzy _
  | .stxZp _ | .stxZpy _ | .stxAbs _ | .styZp _ | .styZpx _ | .styAbs _
  | .aaxZp _ | .aaxZpy _ | .aaxAbs _ | .aaxIzx _ => (SameCpu.writeOperand _ _ _ s).within _
  | .txa | .tya => ⟨fun _ => rfl, fun _ => rfl, fun _ => rfl, fun _ => rfl, fun _ => putNZ_kept⟩
  | .tax | .tsx | .inx | .dex => ⟨nofun, fun _ => rfl, fun _ => rfl, fun _ => rfl, fun _ => putNZ_kept⟩
  | .tay | .iny | .dey => ⟨fun _ => rfl, nofun, fun _ => rfl, fun _ => rfl, fun _ => putNZ_kept⟩
  | .txs => ⟨fun _ => rfl, fun _ => rfl, nofun, fun _ => rfl, fun _ _ => rfl⟩
  | .pha | .php => s.push_covers _ _
  | .pla => execPla_covers s
  | .plp => execPlp_covers s
  | .adcImm _ | .adcZp _ | .adcZpx _ | .adcAbs _ | .adcAbx _ | .adcAby _ | .adcIzx _ | .adcIzy _ => s.adcOperand_covers _ _
  | .sbcImm _ | .sbcZp _ | .sbcZpx _ | .sbcAbs _ | .sbcAbx _ | .sbcAby _ | .sbcIzx _ | .sbcIzy _ | .sbcImmEB _ =>
    s.sbcOperand_covers _ _
  | .cmpImm _ | .cmpZp _ | .cmpZpx _ | .cmpAbs _ | .cmpAbx _ | .cmpAby _ | .cmpIzx _ | .cmpIzy _
  | .cpxImm _ | .cpxZp _ | .cpxAbs _ | .cpyImm _ | .cpyZp _ | .cpyAbs _ => s.compareOperand_covers _ _ _
  | .incZp _ | .incZpx _ | .incAbs _ | .incAbx _ | .decZp _ | .decZpx _ | .decAbs _ | .decAbx _ => s.bumpOperand_covers _ _ _
  | .andImm _ | .andZp _ | .andZpx _ | .andAbs _ | .andAbx _ | .andAby _ | .andIzx _ | .andIzy _
  | .oraImm _ | .oraZp _ | .oraZpx _ | .oraAbs _ | .oraAbx _ | .oraAby _ | .oraIzx _ | .oraIzy _
  | .eorImm _ | .eorZp _ | .eorZpx _ | .eorAbs _ | .eorAbx _ | .eorAby _ | .eorIzx _ | .eorIzy _ =>
    s.logicOperand_covers _ _ _
  | .bitZp _ | .bitAbs _ => s.bitOperand_covers _ _
  | .aslAcc | .lsrAcc | .rolAcc | .rorAcc => s.shiftAcc_covers _ _
  | .aslZp _ | .aslZpx _ | .aslAbs _ | .aslAbx _ | .lsrZp _ | .lsrZpx _ | .lsrAbs _ | .lsrAbx _
  | .rolZp _ | .rolZpx _ | .rolAbs _ | .rolAbx _ | .rorZp _ | .rorZpx _ | .rorAbs _ | .rorAbx _ =>
    s.shiftOperand_covers _ _ _
  | .bpl _ | .bmi _ | .bvc _ | .bvs _ | .bcc _ | .bcs _ | .bne _ | .beq _ => s.branch_covers _ _
  | .jmpAbs _ => ⟨fun _ => rfl, fun _ => rfl, fun _ => rfl, nofun, fun _ _ => rfl⟩
  | .jmpInd a => execJmpInd_covers s a
  | .jsr a => execJsr_covers s a
  | .rts => execRts_covers s
  | .clc | .sec | .cli | .sei | .clv | .cld | .sed => s.putFlag_covers 2 _ _ (by decide)
  | .brk => (SameCpu.charge 7 s).covers (State.enter_covers _ (by decide) (by decide) _ _)
  | .rti => (SameCpu.charge 6 s).covers (State.leave_covers _)
  | .nop | .nop1A | .nop3A | .nop5A | .nop7A | .nopDA | .nopFA
  | .dopImm80 _ | .dopImm82 _ | .dopImm89 _ | .dopImmC2 _ | .dopImmE2 _ => (SameCpu.charge 2 s).within _
  | .dopZp04 _ | .dopZp44 _ | .dopZp64 _
  | .dopZpx14 _ | .dopZpx34 _ | .dopZpx54 _ | .dopZpx74 _ | .dopZpxD4 _ | .dopZpxF4 _
  | .topAbs _ | .topAbx1C _ | .topAbx3C _ | .topAbx5C _ | .topAbx7C _ | .topAbxDC _ | .topAbxFC _ =>
    (SameCpu.readOperand (.mem _) _ s).within _
  | .sloZp _ | .sloZpx _ | .sloAbs _ | .sloAbx _ | .sloAby _ | .sloIzx _ | .sloIzy _
  | .rlaZp _ | .rlaZpx _ | .rlaAbs _ | .rlaAbx _ | .rlaAby _ | .rlaIzx _ | .rlaIzy _
  | .sreZp _ | .sreZpx _ | .sreAbs _ | .sreAbx _ | .sreAby _ | .sreIzx _ | .sreIzy _ => s.shiftThenLogic_covers _ _ _ _
  | .rraZp _ | .rraZpx _ | .rraAbs _ | .rraAbx _ | .rraAby _ | .rraIzx _ | .rraIzy _ => s.rotateThenAdc_covers _ _
  | .dcpZp _ | .dcpZpx _ | .dcpAbs _ | .dcpAbx _ | .dcpAby _ | .dcpIzx _ | .dcpIzy _ => s.decrementThenCompare_covers _ _
  | .iscZp _ | .iscZpx _ | .iscAbs _ | .iscAbx _ | .iscAby _ | .iscIzx _ | .iscIzy _ => s.incrementThenSbc_covers _ _
  | .unassigned _ => trivial

/-! ## The writers of each register and flag, read off the footprints -/

theorem writer_of_x {i : Instr} (h : (footprintOf i).x = true) :
    opcodeOf i ∈ [0xAA#8, 0xBA#8, 0xE8#8, 0xCA#8] ∨ ∃ d a, i ∈ (ldxForms d a ++ laxForms d a).map ReadForm.instr := by
  cases i
  case tax | tsx | inx | dex => exact .inl (by decide)
  case ldxImm d | ldxZp d | ldxZpy d | laxZp d | laxZpy d | laxIzx d | laxIzy d =>
    exact .inr ⟨d, 0#16, by simp [ldxForms, laxForms]⟩
  case ldxAbs a | ldxAby a | laxAbs a | laxAby a => exact .inr ⟨0#8, a, by simp [ldxForms, laxForms]⟩
  all_goals cases h

theorem writer_of_y {i : Instr} (h : (footprintOf i).y = true) :
    opcodeOf i ∈ [0xA8#8, 0xC8#8, 0x88#8] ∨ ∃ d a, i ∈ (ldyForms d a).map ReadForm.instr := by
  cases i
  case tay | iny | dey => exact .inl (by decide)
  case ldyImm d | ldyZp d | ldyZpx d => exact .inr ⟨d, 0#16, by simp [ldyForms]⟩
  case ldyAbs a | ldyAbx a => exact .inr ⟨0#8, a, by simp [ldyForms]⟩
  all_goals cases h

theorem writer_of_sp {i : Instr} (h : (footprintOf i).sp = true) :
    opcodeOf i ∈ [0x9A#8, 0x48#8, 0x08#8, 0x68#8, 0x28#8, 0x20#8, 0x60#8, 0x40#8, 0x00#8] := by
  cases i
  case txs | pha | php | pla | plp | rts | rti | brk => decide
  case jsr a => simp [opcodeOf, encode]
  all_goals cases h

theorem writer_of_pc {i : Instr} (h : (footprintOf i).pc = true) :
    opcodeOf i ∈ [0x4C#8, 0x6C#8, 0x20#8, 0x60#8, 0x40#8, 0x00#8, 0x10#8, 0x30#8, 0x50#8, 0x70#8, 0x90#8, 0xB0#8, 0xD0#8,
      0xF0#8] := by
  cases i
  case rts | rti | brk => decide
  case jmpAbs | jmpInd | jsr | bpl | bmi | bvc | bvs | bcc | bcs | bne | beq => simp [opcodeOf, encode]
  all_goals cases h

theorem writer_of_d {i : Instr} (h : 3 ∈ (footprintOf i).flags) : opcodeOf i ∈ [0xD8#8, 0xF8#8, 0x28#8, 0x40#8] := by
  cases i
  case cld | sed | plp | rti => decide
  all_goals exact absurd h (of_decide_eq_false rfl)

theorem writer_of_i {i : Instr} (h : 2 ∈ (footprintOf i).flags) :
    opcodeOf i ∈ [0x58#8, 0x78#8, 0x28#8, 0x40#8, 0x00#8] := by
  cases i
  case cli | sei | plp | rti | brk => decide
  all_goals exact absurd h (of_decide_eq_false rfl)

theorem writer_of_v {i : Instr} (h : 6 ∈ (footprintOf i).flags) :
    opcodeOf i ∈ [0xB8#8, 0x28#8, 0x40#8]
      ∨ ∃ d a, i ∈ ((adcForms d a ++ sbcForms d a ++ bitForms d a).map ReadForm.instr)
        ∨ i ∈ ((rraForms d a ++ iscForms d a).map MemForm.instr) := by
  cases i
  case clv | plp | rti => exact .inl (by decide)
  case adcImm d | adcZp d | adcZpx d | adcIzx d | adcIzy d | sbcImm d | sbcZp d | sbcZpx d | sbcIzx d | sbcIzy d
      | sbcImmEB d | bitZp d =>
    exact .inr ⟨d, 0#16, .inl (by simp [adcForms, sbcForms, bitForms])⟩
  case adcAbs a | adcAbx a | adcAby a | sbcAbs a | sbcAbx a | sbcAby a | bitAbs a =>
    exact .inr ⟨0#8, a, .inl (by simp [adcForms, sbcForms, bitForms])⟩
  case rraZp d | rraZpx d | rraIzx d | rraIzy d | iscZp d | iscZpx d | iscIzx d | iscIzy d =>
    exact .inr ⟨d, 0#16, .inr (by simp [rraForms, iscForms])⟩
  case rraAbs a | rraAbx a | rraAby a | iscAbs a | iscAbx a | iscAby a =>
    exact .inr ⟨0#8, a, .inr (by simp [rraForms, iscForms])⟩
  all_goals exact absurd h (of_decide_eq_false rfl)

/-- A bit of P that changed is in the footprint. -/
theorem Footprint.Covers.mem_flags {f : Footprint} {s t : State} (h : f.Covers s t) {j : Nat}
    (hj : t.p.getLsbD j ≠ s.p.getLsbD j) : j ∈ f.flags :=
  not_not.mp (mt (h.flags j) hj)

/-- Settles O35: what an instruction changed is in its footprint, and the footprints name the writers of the tables. -/
theorem writersOfFlagsAndRegisters : Obligations.WritersOfFlagsAndRegisters := by
  unfold Obligations.WritersOfFlagsAndRegisters
  intro i s t ht
  have hcov : (footprintOf i).Covers s t := (exec_covers i s).of_eq ht
  exact ⟨fun hd => writer_of_d (hcov.mem_flags hd), fun hi => writer_of_i (hcov.mem_flags hi),
    fun hv => writer_of_v (hcov.mem_flags hv), fun hx => writer_of_x (eq_true_of_ne_false (mt hcov.x hx)),
    fun hy => writer_of_y (eq_true_of_ne_false (mt hcov.y hy)),
    fun hsp => writer_of_sp (eq_true_of_ne_false (mt hcov.sp hsp)),
    fun hpc => writer_of_pc (eq_true_of_ne_false (mt hcov.pc hpc))⟩

end Sys2Proof.Machine
end

section
/-! The state family, tiers 1 and 3: the flag byte over a whole step (10_state.md R15), and the states a run starts from. -/

namespace Sys2Proof.Machine

/-! ## Bits 5 and 4 of P (decision D5) -/

theorem pulledFlags_ok (m : Byte) : FlagByteOk (pulledFlags m) := by simp [FlagByteOk, pulledFlags]

theorem FlagByteOk.of_covers {f : Footprint} {s t : State} (h : FlagByteOk s.p) (hcov : f.Covers s t) (h5 : 5 ∉ f.flags)
    (h4 : 4 ∉ f.flags) : FlagByteOk t.p :=
  ⟨(hcov.flags 5 h5).trans h.1, (hcov.flags 4 h4).trans h.2⟩

/-- PLP and RTI alone write P as a whole. -/
theorem footprintOf_flagByte {i : Instr} (hplp : i ≠ .plp) (hrti : i ≠ .rti) :
    5 ∉ (footprintOf i).flags ∧ 4 ∉ (footprintOf i).flags := by
  cases i
  case plp => exact absurd rfl hplp
  case rti => exact absurd rfl hrti
  all_goals exact of_decide_eq_true rfl

theorem HoldsNext.mono {Q R : State → Prop} {r : Result} (h : HoldsNext Q r) (hQR : ∀ t, Q t → R t) :
    HoldsNext R r := by
  cases r with
  | next t => exact hQR t h
  | fault _ => trivial
  | refused _ => trivial

/-- Every instruction keeps the two bits or loads P with them set as they must be. -/
theorem exec_flagByteOk (i : Instr) {s : State} (h : FlagByteOk s.p) : HoldsNext (fun t => FlagByteOk t.p) (exec i s) := by
  by_cases hplp : i = .plp
  · subst hplp
    exact pulledFlags_ok _
  by_cases hrti : i = .rti
  · subst hrti
    show FlagByteOk (State.leave _).p
    rw [State.leave_eq]
    exact pulledFlags_ok _
  obtain ⟨h5, h4⟩ := footprintOf_flagByte hplp hrti
  exact (exec_covers i s).mono fun t ht => h.of_covers ht h5 h4

theorem State.fetch8_p (s : State) : s.fetch8.2.p = s.p := s.touch_p s.pc

theorem State.fetchInstr_p (s : State) : s.fetchInstr.2.p = s.p := by
  unfold State.fetchInstr
  dsimp only
  split <;> simp only [State.fetch8_p]

theorem State.runInstruction_flagByteOk {s : State} (h : FlagByteOk s.p) :
    HoldsNext (fun t => FlagByteOk t.p) s.runInstruction := by
  have hfetched : FlagByteOk s.fetchInstr.2.p := by rwa [State.fetchInstr_p]
  exact exec_flagByteOk _ hfetched

/-- Taking an exception sets I and nothing else of P. -/
theorem State.serviceInterrupt_flagByteOk {s : State} (h : FlagByteOk s.p) {vector : Addr} (hv : 0x8000 ≤ vector.toNat)
    (hv' : vector.toNat ≠ 0xFFFF) : FlagByteOk (s.serviceInterrupt vector).p := by
  have hentered : FlagByteOk (s.enter vector s.pc (pushedByService s.p)).p :=
    h.of_covers (s.enter_covers hv hv' _ _) (by decide) (by decide)
  exact hentered

/-- A Reset loads `RESET_P`. -/
theorem State.serviceReset_p (s : State) : s.serviceReset.p = s.params.resetP := by
  unfold State.serviceReset
  dsimp only
  rw [State.jumpThrough_vector (by decide) (by decide)]

theorem State.FlagsOk.service {s : State} (h : s.FlagsOk) (k : Interrupt) : FlagByteOk (s.service k).p := by
  cases k with
  | reset => exact (State.serviceReset_p { s with pending := none }).symm ▸ h.2
  | nmi => exact State.serviceInterrupt_flagByteOk (s := { s with pending := none }) h.1 (by decide) (by decide)
  | irq => exact State.serviceInterrupt_flagByteOk (s := { s with pending := none }) h.1 (by decide) (by decide)

theorem State.FlagsOk.executeOp {s : State} (h : s.FlagsOk) : HoldsNext (fun t => FlagByteOk t.p) s.executeOp := by
  unfold State.executeOp
  dsimp only
  split
  · exact State.FlagsOk.service (s := { s with cyc := 0 }) h _
  · exact State.runInstruction_flagByteOk h.1

/-- A step is one `ExecuteOp` and the devices' part of the round (63_cartridge_bus_driver.md R375). -/
theorem executeOp_of_step {s t : State} (h : step s = .next t) : ∃ u, s.executeOp = .next u ∧ t = u.advanceDevices := by
  unfold step State.round at h
  split at h
  · rename_i u hu
    cases h
    exact ⟨u, hu, rfl⟩
  · cases h
  · cases h

/-- Settles O57: what `ExecuteOp` does to P keeps its bits 5 and 4, the devices keep P, and no step changes `RESET_P`. -/
theorem everyStepKeepsTheFlagByte : Obligations.EveryStepKeepsTheFlagByte := by
  unfold Obligations.EveryStepKeepsTheFlagByte
  intro s t h ht
  have hparams : t.params = s.params := (sameHardware_iff.mp (noStepChangesTheHardware s t ht)).2
  refine ⟨?_, by rw [hparams]; exact h.2⟩
  obtain ⟨u, hu, rfl⟩ := executeOp_of_step ht
  rw [u.advanceDevices_sameCpu.p]
  exact h.executeOp.of_eq hu

/-! ## The states a run starts from -/

theorem Sparse.wf_nil {α : Type} (d : α) (size : Nat) : Sparse.wf d size [] :=
  ⟨.nil, fun _ hc => absurd hc List.not_mem_nil⟩

/-- Construction takes the memories and their sizes from the image (63_cartridge_bus_driver.md R350). -/
theorem Cart.construct_memoriesOk {image : CartridgeImage} (h : image.Ok) : (Cart.construct image).MemoriesOk := by
  obtain ⟨-, hrom, hram, hchr, hnt⟩ := h
  have himage : (Cart.construct image).prg16k = image.prg16k ∧ (Cart.construct image).chr8k = image.chr8k
      ∧ (Cart.construct image).prgRom = image.prgRom ∧ (Cart.construct image).prgRam = image.prgRam
      ∧ (Cart.construct image).chr = image.chr ∧ (Cart.construct image).ntExtra = image.ntExtra := by
    unfold Cart.construct
    dsimp only
    split <;> simp
  obtain ⟨hprg16k, hchr8k, hrom', hram', hchr', hnt'⟩ := himage
  unfold Cart.MemoriesOk Cart.prgBanks Cart.chrBanks Cart.chrIsRam
  rw [hprg16k, hchr8k, hrom', hram', hchr', hnt']
  refine ⟨?_, hram, ?_, hnt⟩
  · rwa [show 1024 * (16 * image.prg16k) = 16384 * image.prg16k by omega]
  · convert hchr using 1
    simp only [beq_iff_eq]
    split <;> omega

theorem Cart.construct_serialOk (image : CartridgeImage) : (Cart.construct image).mapper.SerialOk := by
  unfold Cart.construct
  dsimp only
  split
  case h_4 =>
    rw [Cart.mmc1Update_mapper]
    exact Nat.zero_le 4
  case h_5 =>
    rw [Cart.mmc3Update_mapper]
    trivial
  all_goals trivial

/-- The image of the cartridge of `State.reset`: 32 KB of PRG-ROM and 8 KB of CHR-RAM with nothing in them. -/
def emptyImage : CartridgeImage where
  kind := .nrom
  prg16k := 2
  chr8k := 0
  prgRom := []
  prgRam := []
  chr := []
  ntExtra := []
  battery := false
  mirroring := .horizontal

/-- Power-on contents in which every byte reads `Config.powerOnByte`. -/
def emptyContents : PowerOnContents where
  ram := []
  oam := []
  palette := []
  ntRam := []
  frameBuffer := []

theorem Cart.construct_emptyImage : Cart.construct emptyImage = Cart.empty := by decide +kernel

/-- The reset state is a machine powered on with the parameters of this hardware and nothing in its memories. -/
theorem State.powerOn_empty : State.powerOn Config.params emptyImage emptyContents = State.reset := by
  unfold State.powerOn
  rw [Cart.construct_emptyImage]
  rfl

theorem params_ok : ParamsOk Config.params := ⟨⟨by decide, by decide⟩, by decide, by decide⟩

theorem emptyImage_ok : emptyImage.Ok :=
  ⟨by decide, Sparse.wf_nil _ _, Sparse.wf_nil _ _, Sparse.wf_nil _ _, Sparse.wf_nil _ _⟩

theorem emptyContents_ok : emptyContents.Ok :=
  ⟨Sparse.wf_nil _ _, Sparse.wf_nil _ _, Sparse.wf_nil _ _, Sparse.wf_nil _ _, Sparse.wf_nil _ _⟩

theorem State.powerOn_memoriesOk (q : Config.Params) {image : CartridgeImage} {u : PowerOnContents} (hi : image.Ok)
    (hu : u.Ok) : (State.powerOn q image u).MemoriesOk := by
  obtain ⟨hram, hoam, hpalette, hnt, hframe⟩ := hu
  exact ⟨hram, ⟨hoam, hpalette, hnt, hframe, Sparse.wf_nil _ _⟩, Cart.construct_memoriesOk hi,
    Cart.construct_banksOk image hi.1⟩

theorem Ppu.reset_positionOk : Ppu.reset.PositionOk := ⟨by decide, by decide⟩

theorem Ppu.reset_spritesOk : Ppu.reset.SpritesOk := ⟨by decide, by decide⟩

theorem Apu.reset_countersOk {q : Config.Params} (h : ParamsOk q) : Apu.reset.CountersOk q :=
  ⟨by decide, h.2.1, h.2.2, by decide, by decide⟩

theorem Apu.reset_lengthsOk : Apu.reset.LengthsOk := by
  unfold Apu.LengthsOk
  decide

theorem Apu.reset_addressesOk : Apu.reset.dmc.AddressesOk := ⟨by decide, by decide⟩

/-- Settles O56: the devices start from their reset values, the memories and the bank indexes from the image and the
contents; the reset state is one of these machines. -/
theorem initialStatesMeetTheInvariants : Obligations.InitialStatesMeetTheInvariants := by
  unfold Obligations.InitialStatesMeetTheInvariants
  intro good
  have hpowered : ∀ q image u, ParamsOk q → image.Ok → u.Ok → good (State.powerOn q image u) :=
    fun q image u hq hi hu =>
    ⟨⟨hq.1, hq.1⟩, State.powerOn_memoriesOk q hi hu, Ppu.reset_positionOk, Ppu.reset_spritesOk, Apu.reset_countersOk hq,
      Apu.reset_lengthsOk, Apu.reset_addressesOk, Cart.construct_serialOk image⟩
  refine ⟨?_, hpowered⟩
  rw [← State.powerOn_empty]
  exact hpowered _ _ _ params_ok emptyImage_ok emptyContents_ok

end Sys2Proof.Machine
end

section
/-! The memory family, tier 3: the devices' counters over a whole step. What a bus access and a clock can do to the APU, to
the PPU's scan and to the MMC1's serial port is said once; each invariant is then a fact about single device operations. -/

namespace Sys2Proof.Machine

/-! ## The APU: which of its operations a step is made of (62_apu.md R300, R301, R331 to R335) -/

/-- `R` is kept by every register access and every clock of the APU. The sample DMA takes a byte only where the reader
wants one. -/
structure ApuKeeps (R : Config.Params → Apu → Prop) : Prop where
  channel : ∀ (r : BitVec 5) (b : Byte) {q : Config.Params} {u : Apu}, R q u → R q (u.writeChannel r b)
  enables : ∀ (b : Byte) {q : Config.Params} {u : Apu}, R q u → R q (u.writeEnables b)
  frame : ∀ (b : Byte) {q : Config.Params} {u : Apu}, R q u → R q (u.writeFrame b)
  status : ∀ {q : Config.Params} {u : Apu}, R q u → R q u.touchStatus
  divider : ∀ {q : Config.Params} {u : Apu}, R q u → R q (u.clockFrameDivider q.frameDividerPeriod).1
  triangle : ∀ {q : Config.Params} {u : Apu}, R q u → R q { u with triangle := u.triangle.clockTimer }
  byte : ∀ (b : Byte) {q : Config.Params} {u : Apu}, u.dmc.wantsByte = true → R q u →
    R q { u with dmc := (u.dmc.takeByte b).1 }
  output : ∀ {q : Config.Params} {u : Apu}, R q u → R q { u with dmc := u.dmc.clockOutput }
  timers : ∀ {q : Config.Params} {u : Apu}, R q u → R q ((u.clockTimers q.apuTiming).clockSampler q.sampleDivider)

/-- A read of the bus leaves the APU as it is, or it is a read of $4015. -/
theorem State.touch_apu (a : Addr) (s : State) : (s.touch a).apu = s.apu ∨ (s.touch a).apu = s.apu.touchStatus := by
  unfold State.touch
  split
  case h_1 =>
    unfold State.touchPpuRegister
    split <;> exact .inl rfl
  case h_2 => exact .inr rfl
  all_goals exact .inl rfl

theorem State.touch_dmc (a : Addr) (s : State) : (s.touch a).apu.dmc = s.apu.dmc := by
  rcases s.touch_apu a with h | h <;> rw [h]
  rfl

/-! ## The PPU's tick: no APU, and never a ninth sprite (61_ppu.md R275 to R288) -/

/-- What the work of a PPU cycle keeps: the APU and the parameters are those of `s`, and the sprite lists stay within
their eight entries. -/
structure Ticked (s t : State) : Prop where
  apu : t.apu = s.apu
  params : t.params = s.params
  sprites : s.ppu.SpritesOk → t.ppu.SpritesOk

namespace Ticked

theorem refl (s : State) : Ticked s s := ⟨rfl, rfl, id⟩

theorem trans {s t u : State} (h : Ticked s t) (h' : Ticked t u) : Ticked s u :=
  ⟨h'.apu.trans h.apu, h'.params.trans h.params, h'.sprites ∘ h.sprites⟩

/-- An update made only under a condition. -/
theorem ite {c : Prop} [Decidable c] {s t u : State} (ht : Ticked s t) (hu : Ticked s u) :
    Ticked s (if c then t else u) := by
  split <;> assumption

/-- An update of the PPU outside its sprite lists. -/
theorem ppu {s : State} {p : Ppu} (hsecondary : p.secondary = s.ppu.secondary) (hslots : p.slots = s.ppu.slots) :
    Ticked s { s with ppu := p } :=
  ⟨rfl, rfl, fun ⟨h, h'⟩ => ⟨hsecondary ▸ h, hslots ▸ h'⟩⟩

theorem touchPpu (a : PpuAddr) (s : State) : Ticked s (s.touchPpu a) := ⟨rfl, rfl, id⟩

theorem touchPair (a : PpuAddr) (s : State) : Ticked s (s.touchPair a) := (touchPpu a s).trans (touchPpu _ _)

theorem shiftBackground (c : Nat) (s : State) : Ticked s { s with ppu := s.ppu.shiftBackground c } := by
  unfold Ppu.shiftBackground
  dsimp only
  split <;> split <;> exact ppu rfl rfl

theorem fetchBackground (c : Nat) (s : State) : Ticked s (s.fetchBackground c) := by
  unfold State.fetchBackground
  split
  · split
    case h_5 => exact ppu rfl rfl
    case h_6 => exact refl s
    all_goals exact (touchPpu _ s).trans (ppu rfl rfl)
  · exact refl s

theorem fetchSlots (k : Nat) (l : List SecondarySprite) (s : State) : Ticked s (fetchSlots k l s).2 := by
  induction k generalizing l s with
  | zero => exact refl s
  | succ k ih =>
    cases l with
    | nil => exact (touchPair _ s).trans (ih ..)
    | cons e rest => exact (touchPair _ s).trans (ih ..)

end Ticked

/-- `k` rounds of `FetchSprites()` fill at most `k` slots (61_ppu.md R284). -/
theorem fetchSlots_length_le (k : Nat) (l : List SecondarySprite) (s : State) : (fetchSlots k l s).1.length ≤ k := by
  induction k generalizing l s with
  | zero => exact Nat.le_refl 0
  | succ k ih =>
    cases l with
    | nil => exact Nat.le_succ_of_le (ih ..)
    | cons e rest => exact Nat.succ_le_succ (ih ..)

/-- The evaluation takes no ninth sprite (61_ppu.md R283). -/
theorem evaluateFrom_length_le (oam : Memory) (row height k n : Nat) {found : List SecondarySprite}
    (h : found.length ≤ 8) : (evaluateFrom oam row height k n found).1.length ≤ 8 := by
  induction k generalizing n found with
  | zero => exact h
  | succ k ih =>
    unfold evaluateFrom
    dsimp only
    split
    · split
      · exact ih _ (by rw [List.length_append]; exact ‹found.length < 8›)
      · exact h
    · exact ih _ h

namespace Ticked

theorem evaluateSprites (row : Nat) (s : State) : Ticked s { s with ppu := s.ppu.evaluateSprites row } :=
  ⟨rfl, rfl, fun ⟨_, hslots⟩ =>
    ⟨evaluateFrom_length_le s.ppu.oam row s.ppu.spriteHeight 64 0 (found := []) (Nat.zero_le 8), hslots⟩⟩

theorem fetchSprites (s : State) : Ticked s s.fetchSprites :=
  (fetchSlots 8 s.ppu.secondary s).trans ⟨rfl, rfl, fun ⟨hsecondary, _⟩ => ⟨hsecondary, fetchSlots_length_le ..⟩⟩

theorem lineEndWork (c : Nat) (s : State) : Ticked s (s.lineEndWork c) :=
  ite (ppu rfl rfl)
    (ite ((ppu (p := { s.ppu with v := copyHorizontal s.ppu.t s.ppu.v }) rfl rfl).trans (fetchSprites _)) (refl s))

theorem vblankWork (s : State) : Ticked s s.vblankWork := ite (ppu rfl rfl) (ite ⟨rfl, rfl, id⟩ (refl s))

theorem preRenderWork (s : State) : Ticked s s.preRenderWork := by
  unfold State.preRenderWork
  extract_lets c _ cleared worked
  have hcleared : Ticked s cleared := ite ⟨rfl, rfl, fun _ => ⟨Nat.zero_le 8, Nat.zero_le 8⟩⟩ (refl s)
  have hworked : Ticked cleared worked :=
    ((shiftBackground c cleared).trans (fetchBackground c _)).trans (lineEndWork c _)
  exact hcleared.trans (ite (ite (hworked.trans (ppu rfl rfl)) hworked) (refl cleared))

theorem visibleWork (row : Nat) (s : State) : Ticked s (s.visibleWork row) := by
  unfold State.visibleWork
  extract_lets c on shifted drawn fetched evaluated finished
  have hshifted : Ticked s shifted := ite (shiftBackground c s) (refl s)
  have hdrawn : Ticked shifted drawn := ite (ppu rfl rfl) (refl shifted)
  have hfetched : Ticked drawn fetched := ite (fetchBackground c drawn) (refl drawn)
  have hevaluated : Ticked fetched evaluated := ite (evaluateSprites row fetched) (refl fetched)
  have hfinished : Ticked evaluated finished := ite (lineEndWork c evaluated) (refl evaluated)
  have hflushed := ite (c := c = 340) (ppu (p := finished.ppu.flushRow row) rfl rfl) (refl finished)
  exact hshifted.trans (hdrawn.trans (hfetched.trans (hevaluated.trans (hfinished.trans hflushed))))

theorem ppuWork (s : State) : Ticked s s.ppuWork :=
  ite (vblankWork s) (ite (preRenderWork s) (ite (visibleWork _ s) (refl s)))

theorem advance (s : State) : Ticked s { s with ppu := s.ppu.advance s.params.ppuLayout } := by
  unfold Ppu.advance
  split
  · exact ppu rfl rfl
  · split <;> exact ppu rfl rfl

theorem ppuTick (s : State) : Ticked s s.ppuTick := (advance s).trans (ppuWork _)

end Ticked

/-! ## From the APU's operations to a step -/

namespace ApuKeeps

variable {R : Config.Params → Apu → Prop} (hk : ApuKeeps R)
include hk

theorem touch (a : Addr) {s : State} (h : R s.params s.apu) : R (s.touch a).params (s.touch a).apu := by
  rw [State.touch_params]
  rcases s.touch_apu a with hapu | hapu <;> rw [hapu]
  · exact h
  · exact hk.status h

theorem oamDmaCopy (page : Byte) (k : Nat) {s : State} (h : R s.params s.apu) :
    R (oamDmaCopy page k s).params (oamDmaCopy page k s).apu := by
  induction k generalizing s with
  | zero => exact h
  | succ k ih => exact ih (hk.touch _ h)

theorem memWrite (a : Addr) (b : Byte) {s : State} (h : R s.params s.apu) :
    R (s.memWrite a b).1.params (s.memWrite a b).1.apu := by
  unfold State.memWrite
  split
  case h_2 =>
    rw [State.writePpuRegister_params, State.writePpuRegister_apu]
    exact h
  case h_3 => exact hk.channel _ b h
  case h_4 =>
    have hcopied := hk.oamDmaCopy b 256 h
    unfold State.oamDma
    -- named, so that no `rfl` runs the 256 rounds of the copy
    generalize Machine.oamDmaCopy b 256 s = copied at *
    exact hcopied
  case h_5 => exact hk.enables b h
  case h_7 => exact hk.frame b h
  all_goals exact h

theorem fillBuffer {s : State} (h : R s.params s.apu) : R s.fillBuffer.params s.fillBuffer.apu := by
  unfold State.fillBuffer
  split
  · rename_i hwants
    have hwants' : (s.touch s.apu.dmc.curAddr).apu.dmc.wantsByte = true := by rwa [State.touch_dmc]
    exact hk.byte _ hwants' (hk.touch s.apu.dmc.curAddr h)
  · exact h

theorem apuCycle {s : State} (h : R s.params s.apu) : R s.apuCycle.params s.apuCycle.apu := by
  have hframe : R s.clockFrameDivider.params s.clockFrameDivider.apu := hk.divider h
  have hfilled := hk.fillBuffer (s := s.clockFrameDivider.clockTriangle) (hk.triangle hframe)
  exact hk.timers (hk.output hfilled)

/-- A step keeps what every operation of the APU keeps. -/
theorem stepKeeps : StepKeeps (fun s => R s.params s.apu) where
  cpu := fun ⟨_, _, _, hapu, _, _, hparams, _⟩ h => by rwa [hapu, hparams]
  touch := fun a _ h => hk.touch a h
  write := fun a b _ h => hk.memWrite a b h
  pending := fun _ _ h => h
  apu := hk.apuCycle
  ppu := fun {s} h => by rwa [(Ticked.ppuTick s).apu, (Ticked.ppuTick s).params]

end ApuKeeps

/-! ## The counters of the APU (62_apu.md R301, R318, R320, R325, R332, R333) -/

/-- Equal noise register, sample divider and DMC: what the frame sequencer does not reach. -/
structure Apu.SameUnits (u v : Apu) : Prop where
  lfsr : v.noise.lfsr = u.noise.lfsr
  sampleDiv : v.sampleDiv = u.sampleDiv
  dmc : v.dmc = u.dmc

theorem Apu.clockSequencer_sameUnits (u : Apu) : u.SameUnits u.clockSequencer.1 := by
  unfold Apu.clockSequencer
  dsimp only
  split <;> split <;> exact ⟨rfl, rfl, rfl⟩

theorem Apu.clockFrameDivider_sameUnits (period : Nat) (u : Apu) : u.SameUnits (u.clockFrameDivider period).1 := by
  unfold Apu.clockFrameDivider
  split
  · obtain ⟨hlfsr, hdiv, hdmc⟩ := Apu.clockSequencer_sameUnits { u with frame := { u.frame with div := 0 } }
    exact ⟨hlfsr, hdiv, hdmc⟩
  · exact ⟨rfl, rfl, rfl⟩

theorem Apu.writeFrame_sameUnits (b : Byte) (u : Apu) : u.SameUnits (u.writeFrame b) := by
  unfold Apu.writeFrame
  extract_lets v
  split
  · obtain ⟨hlfsr, hdiv, hdmc⟩ := v.clockSequencer_sameUnits
    exact ⟨hlfsr, hdiv, hdmc⟩
  · exact ⟨rfl, rfl, rfl⟩

/-- The sequencer stands at a step of its mode. -/
def FrameSequencer.StepOk (f : FrameSequencer) : Prop := f.step < if f.fiveStep then 5 else 4

theorem Apu.SameUnits.countersOk {u v : Apu} {q : Config.Params} (e : u.SameUnits v) (h : u.CountersOk q)
    (hdiv : v.frame.div < q.frameDividerPeriod) (hstep : v.frame.StepOk) : v.CountersOk q := by
  obtain ⟨hlfsr, hsample, -, -, hbits⟩ := h
  exact ⟨e.lfsr ▸ hlfsr, e.sampleDiv ▸ hsample, hdiv, hstep, e.dmc ▸ hbits⟩

/-- The step wraps at the length of the mode (62_apu.md R332). -/
theorem Apu.clockSequencer_stepOk {u : Apu} (h : u.frame.StepOk) : u.clockSequencer.1.frame.StepOk := by
  unfold FrameSequencer.StepOk at *
  have hmode : u.clockSequencer.1.frame.fiveStep = u.frame.fiveStep := rfl
  have hstep : u.clockSequencer.1.frame.step
      = if u.frame.step + 1 = (if u.frame.fiveStep then 5 else 4) then 0 else u.frame.step + 1 := rfl
  rw [hstep, hmode]
  generalize (if u.frame.fiveStep then 5 else 4) = length at *
  split <;> omega

theorem Apu.clockFrameDivider_countersOk {u : Apu} {q : Config.Params} (h : u.CountersOk q) :
    (u.clockFrameDivider q.frameDividerPeriod).1.CountersOk q := by
  have ⟨_, _, hdiv, hstep, _⟩ := h
  refine (u.clockFrameDivider_sameUnits _).countersOk h ?_ ?_ <;> unfold Apu.clockFrameDivider <;> split
  · exact Nat.zero_lt_of_lt hdiv
  · show u.frame.div + 1 < q.frameDividerPeriod
    omega
  · exact Apu.clockSequencer_stepOk hstep
  · exact hstep

/-- A write of $4017 starts the sequencer anew (62_apu.md R331). -/
theorem Apu.writeFrame_countersOk (b : Byte) {u : Apu} {q : Config.Params} (h : u.CountersOk q) :
    (u.writeFrame b).CountersOk q := by
  have ⟨_, _, hdiv, _, _⟩ := h
  refine (u.writeFrame_sameUnits b).countersOk h ?_ ?_ <;> unfold Apu.writeFrame <;> extract_lets v
  · split <;> exact Nat.zero_lt_of_lt hdiv
  · have hv : v.frame.StepOk := by
      show 0 < if b.getLsbD 7 then 5 else 4
      split <;> decide
    split
    · exact Apu.clockSequencer_stepOk hv
    · exact hv

/-- The feedback bit keeps the noise register away from 0: only 1 shifts to 0, and then the feedback is 1
(62_apu.md R318). -/
theorem Noise.shiftRegister_ne_zero {ch : Noise} (h : ch.lfsr ≠ 0#15) : ch.shiftRegister ≠ 0#15 := by
  intro hzero
  unfold Noise.shiftRegister at hzero
  obtain ⟨hshift, hfeedback⟩ := BitVec.or_eq_zero_iff.mp hzero
  have hone : ch.lfsr = 1#15 := by bv_omega
  simp [hone] at hfeedback

theorem Noise.clockTimer_lfsr_ne_zero (timing : Config.ApuTiming) {ch : Noise} (h : ch.lfsr ≠ 0#15) :
    (ch.clockTimer timing).lfsr ≠ 0#15 := by
  unfold Noise.clockTimer
  split
  · exact Noise.shiftRegister_ne_zero h
  · exact h

theorem Noise.write_lfsr (r : BitVec 2) (b : Byte) (ch : Noise) : (ch.write r b).lfsr = ch.lfsr := by
  unfold Noise.write
  split <;> rfl

theorem Dmc.write_bitsRemaining (r : BitVec 2) (b : Byte) (ch : Dmc) : (ch.write r b).bitsRemaining = ch.bitsRemaining := by
  unfold Dmc.write
  split <;> rfl

/-- The output unit counts its bits down and starts again at 8 (62_apu.md R325). -/
theorem Dmc.clockOutput_bitsRemaining_le {ch : Dmc} (h : ch.bitsRemaining.toNat ≤ 8) :
    ch.clockOutput.bitsRemaining.toNat ≤ 8 := by
  unfold Dmc.clockOutput
  split
  · exact h
  · extract_lets bits restart
    have hbits : bits.toNat ≤ 8 := by
      show (if ch.bitsRemaining != 0#4 then ch.bitsRemaining - 1#4 else ch.bitsRemaining).toNat ≤ 8
      split
      · rename_i hne
        have hne : ch.bitsRemaining ≠ 0#4 := bne_iff_ne.mp hne
        bv_omega
      · exact h
    show (if restart then 8#4 else bits).toNat ≤ 8
    split
    · decide
    · exact hbits

theorem Apu.writeChannel_countersOk (r : BitVec 5) (b : Byte) {u : Apu} {q : Config.Params} (h : u.CountersOk q) :
    (u.writeChannel r b).CountersOk q := by
  obtain ⟨hlfsr, hsample, hdiv, hstep, hbits⟩ := h
  unfold Apu.writeChannel
  dsimp only
  split
  case h_4 => exact ⟨by rwa [Noise.write_lfsr], hsample, hdiv, hstep, hbits⟩
  case h_5 => exact ⟨hlfsr, hsample, hdiv, hstep, by rwa [Dmc.write_bitsRemaining]⟩
  all_goals exact ⟨hlfsr, hsample, hdiv, hstep, hbits⟩

theorem Apu.clockTimers_countersOk {u : Apu} {q : Config.Params} (h : u.CountersOk q) :
    ((u.clockTimers q.apuTiming).clockSampler q.sampleDivider).CountersOk q := by
  obtain ⟨hlfsr, hsample, hdiv, hstep, hbits⟩ := h
  have hlfsr' : (u.clockTimers q.apuTiming).noise.lfsr ≠ 0#15 := by
    unfold Apu.clockTimers
    dsimp only
    split
    · exact Noise.clockTimer_lfsr_ne_zero _ hlfsr
    · exact hlfsr
  unfold Apu.clockSampler
  split
  · exact ⟨hlfsr', Nat.zero_lt_of_lt hsample, hdiv, hstep, hbits⟩
  · rename_i hne
    have hne : u.sampleDiv + 1 ≠ q.sampleDivider := hne
    exact ⟨hlfsr', show u.sampleDiv + 1 < _ by omega, hdiv, hstep, hbits⟩

theorem countersOk_apuKeeps : ApuKeeps (fun q u => u.CountersOk q) where
  channel := fun r b _ _ h => Apu.writeChannel_countersOk r b h
  enables := fun _ _ _ h => h
  frame := fun b _ _ h => Apu.writeFrame_countersOk b h
  status := fun h => h
  divider := Apu.clockFrameDivider_countersOk
  triangle := fun h => h
  byte := fun _ _ _ _ h => h
  output := fun ⟨hlfsr, hsample, hdiv, hstep, hbits⟩ =>
    ⟨hlfsr, hsample, hdiv, hstep, Dmc.clockOutput_bitsRemaining_le hbits⟩
  timers := Apu.clockTimers_countersOk

/-! ## The length counters (62_apu.md R302) -/

theorem Apu.lengthsOk_iff {u : Apu} : u.LengthsOk ↔ u.pulse1.len.count.toNat ≤ 254 ∧ u.pulse2.len.count.toNat ≤ 254
    ∧ u.triangle.len.count.toNat ≤ 254 ∧ u.noise.len.count.toNat ≤ 254 := by
  unfold Apu.LengthsOk
  rw [Fin.forall_fin_succ, Fin.forall_fin_succ, Fin.forall_fin_succ, Fin.forall_fin_one]
  rfl

/-- The counters decide, and nothing else of the APU. -/
theorem Apu.LengthsOk.congr {u v : Apu} (h : u.LengthsOk) (h1 : v.pulse1.len = u.pulse1.len)
    (h2 : v.pulse2.len = u.pulse2.len) (h3 : v.triangle.len = u.triangle.len) (h4 : v.noise.len = u.noise.len) :
    v.LengthsOk := by
  rw [Apu.lengthsOk_iff] at *
  rwa [h1, h2, h3, h4]

/-- 254 is the largest entry of the table. -/
theorem LengthCounter.load_count_le (b : Byte) {l : LengthCounter} (h : l.count.toNat ≤ 254) :
    (l.load b).count.toNat ≤ 254 := by
  have htable : ∀ i : BitVec 8, (BitVec.ofNat 8 (lengthTable.getD (i >>> 3).toNat 0)).toNat ≤ 254 := by decide +kernel
  unfold LengthCounter.load
  split
  · exact htable b
  · exact h

theorem LengthCounter.clock_count_le {l : LengthCounter} (h : l.count.toNat ≤ 254) : l.clock.count.toNat ≤ 254 := by
  unfold LengthCounter.clock
  split
  · rename_i hclocked
    have hne : l.count ≠ 0#8 := by simp_all
    show (l.count - 1#8).toNat ≤ 254
    bv_omega
  · exact h

theorem LengthCounter.enable_count_le (on : Bool) {l : LengthCounter} (h : l.count.toNat ≤ 254) :
    (l.enable on).count.toNat ≤ 254 := by
  cases on with
  | false => exact Nat.zero_le 254
  | true => exact h

theorem Pulse.write_count_le (r : BitVec 2) (b : Byte) {ch : Pulse} (h : ch.len.count.toNat ≤ 254) :
    (ch.write r b).len.count.toNat ≤ 254 := by
  unfold Pulse.write
  split
  case h_4 => exact LengthCounter.load_count_le b h
  all_goals exact h

theorem Triangle.write_count_le (r : BitVec 2) (b : Byte) {ch : Triangle} (h : ch.len.count.toNat ≤ 254) :
    (ch.write r b).len.count.toNat ≤ 254 := by
  unfold Triangle.write
  split
  case h_4 => exact LengthCounter.load_count_le b h
  all_goals exact h

theorem Noise.write_count_le (r : BitVec 2) (b : Byte) {ch : Noise} (h : ch.len.count.toNat ≤ 254) :
    (ch.write r b).len.count.toNat ≤ 254 := by
  unfold Noise.write
  split
  case h_4 => exact LengthCounter.load_count_le b h
  all_goals exact h

theorem Apu.LengthsOk.writeChannel {u : Apu} (h : u.LengthsOk) (r : BitVec 5) (b : Byte) :
    (u.writeChannel r b).LengthsOk := by
  rw [Apu.lengthsOk_iff] at *
  obtain ⟨h1, h2, h3, h4⟩ := h
  unfold Apu.writeChannel
  dsimp only
  split
  case h_1 => exact ⟨Pulse.write_count_le _ b h1, h2, h3, h4⟩
  case h_2 => exact ⟨h1, Pulse.write_count_le _ b h2, h3, h4⟩
  case h_3 => exact ⟨h1, h2, Triangle.write_count_le _ b h3, h4⟩
  case h_4 => exact ⟨h1, h2, h3, Noise.write_count_le _ b h4⟩
  all_goals exact ⟨h1, h2, h3, h4⟩

theorem Apu.LengthsOk.writeEnables {u : Apu} (h : u.LengthsOk) (b : Byte) : (u.writeEnables b).LengthsOk := by
  rw [Apu.lengthsOk_iff] at *
  obtain ⟨h1, h2, h3, h4⟩ := h
  exact ⟨LengthCounter.enable_count_le _ h1, LengthCounter.enable_count_le _ h2, LengthCounter.enable_count_le _ h3,
    LengthCounter.enable_count_le _ h4⟩

theorem Pulse.clockSweep_len (k : PulseId) (ch : Pulse) : (ch.clockSweep k).len = ch.len := by
  unfold Pulse.clockSweep
  split <;> rfl

theorem Apu.LengthsOk.halfClock {u : Apu} (h : u.LengthsOk) : u.halfClock.LengthsOk := by
  rw [Apu.lengthsOk_iff] at *
  obtain ⟨h1, h2, h3, h4⟩ := h
  unfold Apu.halfClock
  dsimp only
  rw [Pulse.clockSweep_len, Pulse.clockSweep_len]
  exact ⟨LengthCounter.clock_count_le h1, LengthCounter.clock_count_le h2, LengthCounter.clock_count_le h3,
    LengthCounter.clock_count_le h4⟩

theorem Apu.LengthsOk.clockSequencer {u : Apu} (h : u.LengthsOk) : u.clockSequencer.1.LengthsOk := by
  have hquarter : u.quarterClock.LengthsOk := h.congr rfl rfl rfl rfl
  unfold Apu.clockSequencer
  dsimp only
  split <;> split
  · exact hquarter.halfClock.congr rfl rfl rfl rfl
  · exact h.halfClock.congr rfl rfl rfl rfl
  · exact hquarter.congr rfl rfl rfl rfl
  · exact h.congr rfl rfl rfl rfl

theorem Apu.LengthsOk.clockFrameDivider {u : Apu} (h : u.LengthsOk) (period : Nat) :
    (u.clockFrameDivider period).1.LengthsOk := by
  unfold Apu.clockFrameDivider
  split
  · exact Apu.LengthsOk.clockSequencer (h.congr rfl rfl rfl rfl)
  · exact h.congr rfl rfl rfl rfl

theorem Apu.LengthsOk.writeFrame {u : Apu} (h : u.LengthsOk) (b : Byte) : (u.writeFrame b).LengthsOk := by
  unfold Apu.writeFrame
  extract_lets v
  have hv : v.LengthsOk := h.congr rfl rfl rfl rfl
  split
  · exact hv.clockSequencer
  · exact hv

theorem Pulse.clockTimer_len (timing : Config.ApuTiming) (ch : Pulse) : (ch.clockTimer timing).len = ch.len := by
  unfold Pulse.clockTimer
  split <;> rfl

theorem Triangle.clockTimer_len (ch : Triangle) : ch.clockTimer.len = ch.len := by
  unfold Triangle.clockTimer
  split <;> rfl

theorem Noise.clockTimer_len (timing : Config.ApuTiming) (ch : Noise) : (ch.clockTimer timing).len = ch.len := by
  unfold Noise.clockTimer
  split <;> rfl

theorem Apu.LengthsOk.clockTimers {u : Apu} (h : u.LengthsOk) (timing : Config.ApuTiming) :
    (u.clockTimers timing).LengthsOk := by
  refine h.congr ?_ ?_ rfl ?_ <;> unfold Apu.clockTimers <;> dsimp only <;> split
  · exact Pulse.clockTimer_len _ _
  · rfl
  · exact Pulse.clockTimer_len _ _
  · rfl
  · exact Noise.clockTimer_len _ _
  · rfl

theorem Apu.LengthsOk.clockSampler {u : Apu} (h : u.LengthsOk) (divider : Nat) : (u.clockSampler divider).LengthsOk := by
  unfold Apu.clockSampler
  split <;> exact h.congr rfl rfl rfl rfl

theorem lengthsOk_apuKeeps : ApuKeeps (fun _ u => u.LengthsOk) where
  channel := fun r b _ _ h => h.writeChannel r b
  enables := fun b _ _ h => h.writeEnables b
  frame := fun b _ _ h => h.writeFrame b
  status := fun h => h.congr rfl rfl rfl rfl
  divider := fun h => h.clockFrameDivider _
  triangle := fun {_ u} h => h.congr rfl rfl u.triangle.clockTimer_len rfl
  byte := fun _ _ _ _ h => h.congr rfl rfl rfl rfl
  output := fun h => h.congr rfl rfl rfl rfl
  timers := fun h => (h.clockTimers _).clockSampler _

/-! ## The addresses of the sample DMA (20_memory.md R60; 62_apu.md R320, R326, R327) -/

/-- $4012 counts from 0xC000 in units of 64. -/
theorem Dmc.AddressesOk.write {ch : Dmc} (h : ch.AddressesOk) (r : BitVec 2) (b : Byte) : (ch.write r b).AddressesOk := by
  obtain ⟨hstart, hcurrent⟩ := h
  unfold Dmc.write
  split
  case h_3 =>
    refine ⟨?_, hcurrent⟩
    show 0x8000 ≤ (0xC000#16 + (b.setWidth 16 <<< 6)).toNat
    have hb := b.isLt
    simp only [BitVec.toNat_add, BitVec.toNat_shiftLeft, BitVec.toNat_setWidth, BitVec.toNat_ofNat, Nat.shiftLeft_eq]
    omega
  all_goals exact ⟨hstart, hcurrent⟩

/-- Bit 4 of $4015 starts a sample at its address, or stops it. -/
theorem Dmc.AddressesOk.enable {ch : Dmc} (h : ch.AddressesOk) (on : Bool) : (ch.enable on).AddressesOk := by
  obtain ⟨hstart, hcurrent⟩ := h
  refine ⟨hstart, ?_⟩
  unfold Dmc.enable
  cases on with
  | false => exact fun hstopped => absurd rfl hstopped
  | true =>
    by_cases hidle : ch.bytesRemaining = 0#12
    · simpa [hidle] using fun _ => hstart
    · simpa [hidle] using hcurrent hidle

/-- The reader's address wraps from 0xFFFF to 0x8000, and a looping sample starts again at its address. -/
theorem Dmc.AddressesOk.takeByte {ch : Dmc} (h : ch.AddressesOk) (hwants : ch.wantsByte = true) (b : Byte) :
    (ch.takeByte b).1.AddressesOk := by
  obtain ⟨hstart, hcurrent⟩ := h
  have hplaying : ch.bytesRemaining ≠ 0#12 := by
    unfold Dmc.wantsByte at hwants
    simp_all
  have hread := hcurrent hplaying
  unfold Dmc.takeByte
  extract_lets last next
  have hnext : 0x8000 ≤ next.toNat := by
    show 0x8000 ≤ (if ch.curAddr = 0xFFFF#16 then 0x8000#16 else ch.curAddr + 1#16).toNat
    split
    · decide
    · bv_omega
  refine ⟨hstart, fun _ => ?_⟩
  show 0x8000 ≤ (if last && ch.loop then ch.sampleAddr else next).toNat
  split
  · exact hstart
  · exact hnext

theorem Dmc.AddressesOk.clockOutput {ch : Dmc} (h : ch.AddressesOk) : ch.clockOutput.AddressesOk := by
  unfold Dmc.clockOutput
  split <;> exact h

theorem Apu.writeChannel_addressesOk (r : BitVec 5) (b : Byte) {u : Apu} (h : u.dmc.AddressesOk) :
    (u.writeChannel r b).dmc.AddressesOk := by
  unfold Apu.writeChannel
  dsimp only
  split
  case h_5 => exact h.write _ b
  all_goals exact h

theorem Apu.clockSampler_dmc (divider : Nat) (u : Apu) : (u.clockSampler divider).dmc = u.dmc := by
  unfold Apu.clockSampler
  split <;> rfl

theorem addressesOk_apuKeeps : ApuKeeps (fun _ u => u.dmc.AddressesOk) where
  channel := fun r b _ _ h => Apu.writeChannel_addressesOk r b h
  enables := fun _ _ _ h => h.enable _
  frame := fun b _ u h => (u.writeFrame_sameUnits b).dmc ▸ h
  status := fun h => h
  divider := fun {_ u} h => (u.clockFrameDivider_sameUnits _).dmc ▸ h
  triangle := fun h => h
  byte := fun b _ _ hwants h => h.takeByte hwants b
  output := fun h => h.clockOutput
  timers := fun h => by rwa [Apu.clockSampler_dmc]

/-! ## The PPU's position and sprite lists under bus accesses (20_memory.md R50; 61_ppu.md R264 to R273) -/

/-- Equal position and sprite lists. -/
structure Ppu.SameScan (p p' : Ppu) : Prop where
  cycle : p'.cycle = p.cycle
  scanline : p'.scanline = p.scanline
  secondary : p'.secondary = p.secondary
  slots : p'.slots = p.slots

theorem Ppu.SameScan.trans {p p' p'' : Ppu} (h : p.SameScan p') (h' : p'.SameScan p'') : p.SameScan p'' :=
  ⟨h'.cycle.trans h.cycle, h'.scanline.trans h.scanline, h'.secondary.trans h.secondary, h'.slots.trans h.slots⟩

theorem Ppu.SameScan.positionOk {p p' : Ppu} (e : p.SameScan p') (h : p.PositionOk) : p'.PositionOk :=
  ⟨e.cycle ▸ h.1, e.scanline ▸ h.2⟩

theorem Ppu.SameScan.spritesOk {p p' : Ppu} (e : p.SameScan p') (h : p.SpritesOk) : p'.SpritesOk :=
  ⟨e.secondary ▸ h.1, e.slots ▸ h.2⟩

theorem State.touch_sameScan (a : Addr) (s : State) : s.ppu.SameScan (s.touch a).ppu := by
  unfold State.touch
  split
  case h_1 =>
    unfold State.touchPpuRegister
    split <;> exact ⟨rfl, rfl, rfl, rfl⟩
  all_goals exact ⟨rfl, rfl, rfl, rfl⟩

theorem State.writePpu_sameScan (a : PpuAddr) (b : Byte) (s : State) : s.ppu.SameScan (s.writePpu a b).ppu := by
  unfold State.writePpu
  dsimp only
  split
  · exact ⟨rfl, rfl, rfl, rfl⟩
  · split
    · split <;> exact ⟨rfl, rfl, rfl, rfl⟩
    · exact ⟨rfl, rfl, rfl, rfl⟩

theorem State.writePpuRegister_sameScan (r : BitVec 3) (b : Byte) (s : State) :
    s.ppu.SameScan (s.writePpuRegister r b).ppu := by
  unfold State.writePpuRegister
  split
  case h_5 =>
    unfold Ppu.writeScroll
    split <;> exact ⟨rfl, rfl, rfl, rfl⟩
  case h_6 =>
    unfold Ppu.writeAddress
    split <;> exact ⟨rfl, rfl, rfl, rfl⟩
  case h_7 => exact (s.writePpu_sameScan _ b).trans ⟨rfl, rfl, rfl, rfl⟩
  all_goals exact ⟨rfl, rfl, rfl, rfl⟩

theorem oamDmaCopy_sameScan (page : Byte) (k : Nat) (s : State) : s.ppu.SameScan (oamDmaCopy page k s).ppu := by
  induction k generalizing s with
  | zero => exact ⟨rfl, rfl, rfl, rfl⟩
  | succ k ih =>
    refine Ppu.SameScan.trans ?_ (ih _)
    exact (s.touch_sameScan _).trans ⟨rfl, rfl, rfl, rfl⟩

theorem State.memWrite_sameScan (a : Addr) (b : Byte) (s : State) : s.ppu.SameScan (s.memWrite a b).1.ppu := by
  unfold State.memWrite
  split
  case h_2 => exact s.writePpuRegister_sameScan _ b
  case h_4 => exact oamDmaCopy_sameScan b 256 s
  all_goals exact ⟨rfl, rfl, rfl, rfl⟩

/-- The APU's clock reaches outside the APU and the pending slot by a bus read alone (62_apu.md R326). -/
theorem State.apuCycle_sameScan (s : State) : s.ppu.SameScan s.apuCycle.ppu := by
  have hfilled : ∀ t : State, t.ppu.SameScan t.fillBuffer.ppu := fun t => by
    unfold State.fillBuffer
    split
    · exact t.touch_sameScan _
    · exact ⟨rfl, rfl, rfl, rfl⟩
  exact hfilled s.clockFrameDivider.clockTriangle

/-- A property of the position and the sprite lists is kept by a step where a PPU cycle keeps it. -/
theorem scan_stepKeeps {Q : Ppu → Prop} (hscan : ∀ {p p' : Ppu}, p.SameScan p' → Q p → Q p')
    (htick : ∀ {s : State}, Q s.ppu → Q s.ppuTick.ppu) : StepKeeps (fun s => Q s.ppu) where
  cpu := fun ⟨_, _, hppu, _⟩ h => by rwa [hppu]
  touch := fun a s h => hscan (s.touch_sameScan a) h
  write := fun a b s h => hscan (s.memWrite_sameScan a b) h
  pending := fun _ _ h => h
  apu := fun {s} h => hscan s.apuCycle_sameScan h
  ppu := htick

/-- The position wraps at the end of the scanline and of the frame (61_ppu.md R275). -/
theorem Ppu.PositionOk.advance {p : Ppu} (h : p.PositionOk) (layout : Config.PpuLayout) : (p.advance layout).PositionOk := by
  obtain ⟨hcycle, hline⟩ := h
  have hlength : p.lineLength layout ≤ 341 := by
    unfold Ppu.lineLength
    split <;> decide
  unfold Ppu.advance
  split
  · exact ⟨Nat.lt_of_lt_of_le ‹_› hlength, hline⟩
  · split
    · exact ⟨Nat.zero_lt_succ 340, Nat.zero_lt_succ 261⟩
    · exact ⟨Nat.zero_lt_succ 340, show p.scanline + 1 < 262 by omega⟩

theorem State.ppuTick_positionOk {s : State} (h : s.ppu.PositionOk) : s.ppuTick.ppu.PositionOk := by
  obtain ⟨hcycle, hline, -, -⟩ := s.ppuTick_place
  have hadvanced := h.advance s.params.ppuLayout
  exact ⟨hcycle ▸ hadvanced.1, hline ▸ hadvanced.2⟩

/-! ## The serial port of an MMC1 (63_cartridge_bus_driver.md R359, R360) -/

theorem Cart.mmc1Write_serialOk {r : Mmc1} (h : r.srCount ≤ 4) (a : Addr) (b : Byte) (c : Cart) :
    (c.mmc1Write r a b).mapper.SerialOk := by
  unfold Cart.mmc1Write
  dsimp only
  split
  · rw [Cart.mmc1Update_mapper]
    exact Nat.zero_le 4
  · split
    · rw [Cart.mmc1Update_mapper]
      show Mmc1.srCount _ ≤ 4
      split <;> exact Nat.zero_le 4
    · show r.srCount + 1 ≤ 4
      omega

/-- Only an MMC1 has a serial port. -/
theorem Mapper.serialOk_of_kind {m : Mapper} (h : m.kind ≠ .mmc1) : m.SerialOk := by
  cases m with
  | mmc1 r => exact absurd rfl h
  | nrom | unrom | gxrom | mmc3 r => trivial

theorem Cart.mapperWrite_serialOk {c : Cart} (h : c.mapper.SerialOk) (a : Addr) (b : Byte) :
    (c.mapperWrite a b).mapper.SerialOk := by
  by_cases hkind : c.mapper.kind = .mmc1
  · unfold Cart.mapperWrite
    cases hm : c.mapper with
    | mmc1 r =>
      rw [hm] at h
      exact Cart.mmc1Write_serialOk h a b c
    | nrom | unrom | gxrom | mmc3 r => rw [hm] at hkind; cases hkind
  · exact Mapper.serialOk_of_kind (by rwa [Cart.mapperWrite_kind])

theorem Cart.writePrg_serialOk {c : Cart} (h : c.mapper.SerialOk) (a : Addr) (b : Byte) :
    (c.writePrg a b).mapper.SerialOk := by
  unfold Cart.writePrg
  split
  · exact Cart.mapperWrite_serialOk h a b
  · split <;> exact h

theorem State.observe_serialOk {s : State} (h : s.cart.mapper.SerialOk) (a : PpuAddr) :
    (s.observe a).1.mapper.SerialOk := by
  unfold State.observe Cart.observeA12
  split
  · split
    · trivial
    · exact h
  · exact h

theorem State.touch_serialOk {s : State} (h : s.cart.mapper.SerialOk) (a : Addr) : (s.touch a).cart.mapper.SerialOk := by
  unfold State.touch
  split
  case h_1 =>
    unfold State.touchPpuRegister
    split
    case h_2 => exact State.observe_serialOk h _
    all_goals exact h
  all_goals exact h

theorem State.writePpu_serialOk {s : State} (h : s.cart.mapper.SerialOk) (a : PpuAddr) (b : Byte) :
    (s.writePpu a b).cart.mapper.SerialOk := by
  unfold State.writePpu
  dsimp only
  split
  · unfold Cart.writeChr
    split <;> exact State.observe_serialOk h a
  · split
    · split <;> exact h
    · exact h

theorem State.writePpuRegister_serialOk {s : State} (h : s.cart.mapper.SerialOk) (r : BitVec 3) (b : Byte) :
    (s.writePpuRegister r b).cart.mapper.SerialOk := by
  unfold State.writePpuRegister
  split
  case h_7 => exact State.writePpu_serialOk h _ b
  all_goals exact h

theorem oamDmaCopy_serialOk (page : Byte) (k : Nat) {s : State} (h : s.cart.mapper.SerialOk) :
    (oamDmaCopy page k s).cart.mapper.SerialOk := by
  induction k generalizing s with
  | zero => exact h
  | succ k ih => exact ih (State.touch_serialOk h _)

theorem State.memWrite_serialOk {s : State} (h : s.cart.mapper.SerialOk) (a : Addr) (b : Byte) :
    (s.memWrite a b).1.cart.mapper.SerialOk := by
  unfold State.memWrite
  split
  case h_2 => exact State.writePpuRegister_serialOk h _ b
  case h_4 =>
    have hcopied := oamDmaCopy_serialOk b 256 h
    unfold State.oamDma
    generalize oamDmaCopy b 256 s = copied at *
    exact hcopied
  case h_9 => exact Cart.writePrg_serialOk h a b
  all_goals exact h

theorem serialOk_clockKeeps : ClockKeeps (fun s => s.cart.mapper.SerialOk) where
  touch := fun a _ h => State.touch_serialOk h a
  touchPpu := fun a _ h => State.observe_serialOk h a
  apu := fun _ _ _ h => h
  ppu := fun _ h => h

theorem serialOk_stepKeeps : StepKeeps (fun s => s.cart.mapper.SerialOk) where
  cpu := fun ⟨_, _, _, _, hcart, _⟩ h => by rwa [hcart]
  touch := fun a _ h => State.touch_serialOk h a
  write := fun a b _ h => State.memWrite_serialOk h a b
  pending := fun _ _ h => h
  apu := serialOk_clockKeeps.apuCycle
  ppu := serialOk_clockKeeps.ppuTick

/-- Settles O59: each of the six ranges is an invariant of the operations a step is made of, whether or not the others
hold. -/
theorem everyStepKeepsTheDevicesInRange : Obligations.EveryStepKeepsTheDevicesInRange := by
  unfold Obligations.EveryStepKeepsTheDevicesInRange
  intro s t ht
  exact ⟨fun h => (scan_stepKeeps Ppu.SameScan.positionOk State.ppuTick_positionOk).step h ht,
    fun h => (scan_stepKeeps Ppu.SameScan.spritesOk fun {s} => (Ticked.ppuTick s).sprites).step h ht,
    fun h => countersOk_apuKeeps.stepKeeps.step h ht, fun h => lengthsOk_apuKeeps.stepKeeps.step h ht,
    fun h => addressesOk_apuKeeps.stepKeeps.step h ht, fun h => serialOk_stepKeeps.step h ht⟩

end Sys2Proof.Machine
end

section
/-! The memory family, tier 2: RAM and its images, addresses without an effect, and the OAM DMA (20_memory.md R46 to R52). -/

namespace Sys2Proof.Machine

/-! ## RAM (20_memory.md R46) -/

theorem writeChanges_of_ram {a b : Addr} (ha : a.toNat < 0x2000) (hb : ¬ b.toNat < 0x2000) : writeChanges a b = false := by
  unfold writeChanges
  rw [region_eq_ram.mpr ⟨ha, rfl⟩]
  exact beq_eq_false_iff_ne.mpr fun hr => hb (region_eq_ram.mp hr).1

/-- Settles O36: below 0x2000 an access is one of the RAM location the low 11 bits name; beyond, a RAM write changes no
byte. -/
theorem ramIsMirrored : Obligations.RamIsMirrored := by
  unfold Obligations.RamIsMirrored
  intro s a b v ha
  refine ⟨s.touch_of_ram ha, _, s.memWrite_ram v ha, rfl, ?_⟩
  by_cases hb : b.toNat < 0x2000
  · rw [State.peek_of_ram _ hb, s.peek_of_ram hb, Memory.read_write, lowBits_toNat, lowBits_toNat]
    simp only [hb, true_and, eq_comm]
  · have hkept := s.peek_memWrite v (writeChanges_of_ram ha hb)
    rw [s.memWrite_ram v ha] at hkept
    rw [if_neg fun h => hb h.1]
    exact hkept

/-! ## Addresses without an effect (20_memory.md R49, R50) -/

/-- Number `k` of the eight PPU registers, as the low three bits of an address. -/
theorem ppuRegister_toNat (a : Addr) : (BitVec.ofNat 3 (a.toNat % 8)).toNat = a.toNat % 8 := by
  rw [BitVec.toNat_ofNat]
  omega

/-- A PPU register other than $2002, $2004 and $2007 is write-only. -/
theorem State.peekPpuRegister_writeOnly (s : State) {r : BitVec 3} (h2 : r.toNat ≠ 2) (h4 : r.toNat ≠ 4)
    (h7 : r.toNat ≠ 7) : s.peekPpuRegister r = 0#8 := by
  unfold State.peekPpuRegister
  split
  · exact absurd ‹_› h2
  · exact absurd ‹_› h4
  · exact absurd ‹_› h7
  · rfl

/-- The channel registers and $4014 read 0 (decision D13). -/
theorem State.peek_apuChannel (s : State) {a : Addr} (h : 0x4000 ≤ a.toNat) (h' : a.toNat ≤ 0x4014) : s.peek a = 0#8 := by
  unfold State.peek region
  rw [if_neg (by omega), if_neg (by omega)]
  by_cases hdma : a.toNat = 0x4014
  · rw [if_neg (by omega), if_pos hdma]
  · rw [if_pos (by omega)]

/-- 0x4018 to 0x5FFF names no register and no memory: the last 32 bytes below 0x4020 by the decode, the rest because no
cartridge answers there. -/
theorem region_unmapped {a : Addr} (h : 0x4018 ≤ a.toNat) :
    region a = if a.toNat < 0x4020 then .unmapped else .cartridge := by
  unfold region
  iterate 7 rw [if_neg (by omega)]

theorem State.peek_unmapped (s : State) {a : Addr} (h : 0x4018 ≤ a.toNat) (h' : a.toNat < 0x6000) : s.peek a = 0#8 := by
  unfold State.peek
  rw [region_unmapped h]
  by_cases hio : a.toNat < 0x4020
  · rw [if_pos hio]
  · rw [if_neg hio]
    show s.cart.readPrg a = 0#8
    unfold Cart.readPrg
    rw [if_neg (by omega), if_neg (by omega)]

theorem State.memWrite_unmapped (s : State) {a : Addr} (v : Byte) (h : 0x4018 ≤ a.toNat) (h' : a.toNat < 0x6000) :
    s.memWrite a v = (s, 0) := by
  unfold State.memWrite
  rw [region_unmapped h]
  by_cases hio : a.toNat < 0x4020
  · rw [if_pos hio]
  · rw [if_neg hio]
    show ({ s with cart := s.cart.writePrg a v }, 0) = (s, 0)
    unfold Cart.writePrg
    rw [if_neg (by omega), if_neg (by omega)]

/-- No write reaches PRG-ROM: it is part of the board. -/
theorem State.memWrite_prgRom (s : State) (a : Addr) (v : Byte) :
    (s.memWrite a v).1.cart.prgRom = s.cart.prgRom :=
  (sameHardware_iff.mp (s.memWrite_sameHardware a v)).1.1

theorem region_eq_ppu {a : Addr} {r : BitVec 3} (h : region a = .ppu r) :
    0x2000 ≤ a.toNat ∧ a.toNat < 0x4000 ∧ r.toNat = a.toNat % 8 := by
  have hlow : 0x2000 ≤ a.toNat := by
    by_contra hram
    rw [region_eq_ram.mpr ⟨by omega, rfl⟩] at h
    cases h
  have hhigh : a.toNat < 0x4000 := by
    by_contra hio
    unfold region at h
    rw [if_neg (by omega), if_neg hio] at h
    repeat' split at h
    all_goals cases h
  rw [region_ppu hlow hhigh] at h
  cases h
  exact ⟨hlow, hhigh, ppuRegister_toNat a⟩

/-- The addresses of 20_memory.md R50, by number. -/
theorem readSensitive_eq_true {a : Addr} (h : readSensitive a = true) :
    (0x2000 ≤ a.toNat ∧ a.toNat < 0x4000 ∧ (a.toNat % 8 = 2 ∨ a.toNat % 8 = 7)) ∨ a.toNat = 0x4015 ∨ a.toNat = 0x4016
      ∨ a.toNat = 0x4017 := by
  unfold readSensitive at h
  split at h
  case h_1 r hr =>
    obtain ⟨hlow, hhigh, hk⟩ := region_eq_ppu hr
    rw [← hk]
    rcases Bool.or_eq_true_iff.mp h with hr2 | hr7
    · exact .inl ⟨hlow, hhigh, .inl (congrArg BitVec.toNat (eq_of_beq hr2))⟩
    · exact .inl ⟨hlow, hhigh, .inr (congrArg BitVec.toNat (eq_of_beq hr7))⟩
  case h_2 hr => exact .inr (.inl (congrArg BitVec.toNat (region_eq_apuStatus.mp hr)))
  case h_3 hr => exact .inr (.inr (.inl (congrArg BitVec.toNat (region_eq_port1.mp hr))))
  case h_4 hr => exact .inr (.inr (.inr (congrArg BitVec.toNat (region_eq_port2.mp hr))))
  all_goals cases h

/-- Reading $2002 through any mirror takes the VBlank flag away. -/
theorem exists_touch_ne_of_status {a : Addr} (h : 0x2000 ≤ a.toNat) (h' : a.toNat < 0x4000) (hk : a.toNat % 8 = 2) :
    ∃ u : State, u.touch a ≠ u := by
  refine ⟨{ State.reset with ppu := { Ppu.reset with status := 0x80#8 } }, fun heq => ?_⟩
  rw [State.touch_ppu _ h h', hk] at heq
  exact absurd (congrArg (·.ppu.status) heq) (by decide)

/-- Reading $2007 through any mirror steps `v`. -/
theorem exists_touch_ne_of_data {a : Addr} (h : 0x2000 ≤ a.toNat) (h' : a.toNat < 0x4000) (hk : a.toNat % 8 = 7) :
    ∃ u : State, u.touch a ≠ u := by
  refine ⟨State.reset, fun heq => ?_⟩
  rw [State.touch_ppu _ h h', hk] at heq
  exact absurd (congrArg (·.ppu.v) heq) (by decide)

/-- Reading $4015 takes the frame IRQ flag away. -/
theorem exists_touch_ne_of_apuStatus : ∃ u : State, u.touch 0x4015#16 ≠ u :=
  ⟨{ State.reset with apu := { Apu.reset with frame := { Apu.reset.frame with irq := true } } },
    fun heq => absurd (congrArg (·.apu.frame.irq) heq) (by decide)⟩

/-- Reading a controller port shifts a 1 into its register. -/
theorem touch_port1_ne : State.reset.touch 0x4016#16 ≠ State.reset := fun heq =>
  absurd (congrArg (·.ports.shift1) heq) (by decide)

theorem touch_port2_ne : State.reset.touch 0x4017#16 ≠ State.reset := fun heq =>
  absurd (congrArg (·.ports.shift2) heq) (by decide)

/-- Settles O37: the decode sends each of these addresses to a register that is write-only, read-only or absent; a state
that a read changes is named for each kind of sensitive address. -/
theorem addressesWithoutEffect : Obligations.AddressesWithoutEffect := by
  unfold Obligations.AddressesWithoutEffect
  intro s a v n register unmapped
  refine ⟨fun h => ?_, fun h => ?_, fun _ => s.memWrite_prgRom a v, fun h => s.touch_eq_self ?_, fun h => ?_⟩
  · have hwriteOnly : ∀ k, register k → k ≠ 2 → k ≠ 4 → k ≠ 7 → s.peek a = 0#8 := by
      intro k ⟨hlow, hhigh, hk⟩ h2 h4 h7
      have hr : (BitVec.ofNat 3 (a.toNat % 8)).toNat = k := (ppuRegister_toNat a).trans hk
      rw [s.peek_ppu hlow hhigh]
      exact s.peekPpuRegister_writeOnly (hr ▸ h2) (hr ▸ h4) (hr ▸ h7)
    rcases h with h | h | h | h | h | ⟨hlow, hhigh⟩ | ⟨hlow, hhigh⟩
    · exact hwriteOnly 0 h (by decide) (by decide) (by decide)
    · exact hwriteOnly 1 h (by decide) (by decide) (by decide)
    · exact hwriteOnly 3 h (by decide) (by decide) (by decide)
    · exact hwriteOnly 5 h (by decide) (by decide) (by decide)
    · exact hwriteOnly 6 h (by decide) (by decide) (by decide)
    · exact s.peek_apuChannel hlow hhigh
    · exact s.peek_unmapped hlow hhigh
  · rcases h with ⟨hlow, hhigh, hk⟩ | ⟨hlow, hhigh⟩
    · have hk : a.toNat % 8 = 2 := hk
      rw [s.memWrite_ppu v hlow hhigh, hk]
      rfl
    · exact s.memWrite_unmapped v hlow hhigh
  · refine Bool.eq_false_iff.mpr fun hsensitive => h ?_
    rcases readSensitive_eq_true hsensitive with ⟨hlow, hhigh, hk | hk⟩ | hn
    · exact .inl ⟨hlow, hhigh, hk⟩
    · exact .inr (.inl ⟨hlow, hhigh, hk⟩)
    · exact .inr (.inr hn)
  · rcases h with ⟨hlow, hhigh, hk⟩ | ⟨hlow, hhigh, hk⟩ | hn | hn | hn
    · exact exists_touch_ne_of_status hlow hhigh hk
    · exact exists_touch_ne_of_data hlow hhigh hk
    · obtain rfl : a = 0x4015#16 := BitVec.eq_of_toNat_eq hn
      exact exists_touch_ne_of_apuStatus
    · obtain rfl : a = 0x4016#16 := BitVec.eq_of_toNat_eq hn
      exact ⟨_, touch_port1_ne⟩
    · obtain rfl : a = 0x4017#16 := BitVec.eq_of_toNat_eq hn
      exact ⟨_, touch_port2_ne⟩

/-! ## The OAM DMA (20_memory.md R52) -/

/-- Round `i` of the copy: a read of the page with its side effect, and the byte at the next OAM location. -/
def oamDmaRound (page : Byte) (i : Nat) (s : State) : State :=
  let a := joinBytes page (BitVec.ofNat 8 i)
  let u := s.touch a
  { u with ppu := { u.ppu with oam := u.ppu.oam.write ((u.ppu.oamAddr.toNat + i) % 256) (s.peek a) } }

/-- The state after the first `i` rounds. -/
def oamDmaAfter (page : Byte) (s : State) : Nat → State
  | 0 => s
  | i + 1 => oamDmaRound page i (oamDmaAfter page s i)

/-- The loop of the model counts the rounds that are left. -/
theorem oamDmaCopy_succ (page : Byte) (k : Nat) (s : State) :
    oamDmaCopy page (k + 1) s = oamDmaCopy page k (oamDmaRound page (255 - k) s) := by
  have hlocation : ∀ o : Byte, (o + BitVec.ofNat 8 (255 - k)).toNat = (o.toNat + (255 - k)) % 256 := fun o => by
    rw [BitVec.toNat_add, BitVec.toNat_ofNat]
    omega
  unfold oamDmaRound
  dsimp only
  rw [← hlocation]
  rfl

theorem oamDmaCopy_eq_after (page : Byte) (s : State) {k : Nat} (h : k ≤ 256) :
    oamDmaCopy page k (oamDmaAfter page s (256 - k)) = oamDmaAfter page s 256 := by
  induction k with
  | zero => rfl
  | succ k ih =>
    have hround : oamDmaRound page (255 - k) (oamDmaAfter page s (256 - (k + 1))) = oamDmaAfter page s (256 - k) := by
      rw [show 256 - (k + 1) = 255 - k by omega, show 256 - k = 255 - k + 1 by omega]
      rfl
    rw [oamDmaCopy_succ, hround]
    exact ih (by omega)

/-- A page outside 0x20 to 0x40 has no device register and no side effect. -/
theorem page_isMemory {page : Byte} (h : page.toNat < 0x20 ∨ 0x40 < page.toNat) (i : Byte) :
    isDevice (joinBytes page i) = false ∧ readSensitive (joinBytes page i) = false := by
  have hi := i.isLt
  have ha := joinBytes_toNat page i
  have hregion : (∃ k, region (joinBytes page i) = .ram k) ∨ region (joinBytes page i) = .cartridge := by
    rcases h with h | h
    · exact .inl ⟨_, region_eq_ram.mpr ⟨by omega, rfl⟩⟩
    · exact .inr (region_eq_cartridge.mpr (by omega))
  unfold isDevice readSensitive
  rcases hregion with ⟨k, hr⟩ | hr <;> rw [hr] <;> exact ⟨rfl, rfl⟩

/-- OAM after `i` bytes of a page of memory. -/
def copiedOam (page : Byte) (s : State) : Nat → Memory
  | 0 => s.ppu.oam
  | i + 1 => (copiedOam page s i).write ((s.ppu.oamAddr.toNat + i) % 256) (s.peek (joinBytes page (BitVec.ofNat 8 i)))

/-- From a page of memory every round reads what the first state holds, and changes OAM alone. -/
theorem oamDmaAfter_of_memory {page : Byte} (h : page.toNat < 0x20 ∨ 0x40 < page.toNat) (s : State) (i : Nat) :
    oamDmaAfter page s i = { s with ppu := { s.ppu with oam := copiedOam page s i } } := by
  induction i with
  | zero => rfl
  | succ i ih =>
    obtain ⟨hdevice, hsensitive⟩ := page_isMemory h (BitVec.ofNat 8 i)
    have hpeek : (oamDmaAfter page s i).peek (joinBytes page (BitVec.ofNat 8 i))
        = s.peek (joinBytes page (BitVec.ofNat 8 i)) := by
      rw [ih]
      exact State.peek_congr_plain hdevice rfl (.refl _)
    rw [oamDmaAfter, oamDmaRound, State.touch_eq_self _ hsensitive, hpeek, ih]
    rfl

/-- The bytes copied first are not overwritten: 256 rounds write 256 different locations. -/
theorem copiedOam_read (page : Byte) (s : State) {i k : Nat} (hi : i ≤ 256) (hk : k < i) :
    (copiedOam page s i).read ((s.ppu.oamAddr.toNat + k) % 256) = s.peek (joinBytes page (BitVec.ofNat 8 k)) := by
  induction i with
  | zero => omega
  | succ i ih =>
    unfold copiedOam
    by_cases hlast : k = i
    · rw [hlast, Memory.read_write_same]
    · rw [Memory.read_write_other (by omega)]
      exact ih (by omega) (by omega)

theorem State.memWrite_oamDma (page : Byte) (s : State) :
    s.memWrite 0x4014#16 page
      = ({ oamDmaAfter page s 256 with dmaDraws := s.dmaDraws + 1 }, Config.oamDmaStall s.dmaDraws) := by
  have hcopy := oamDmaCopy_eq_after page s (Nat.le_refl 256)
  rw [← hcopy]
  rfl

theorem region_eq_oamDma {a : Addr} (h : region a = .oamDma) : a = 0x4014#16 := by
  unfold region at h
  repeat' split at h
  all_goals cases h
  exact BitVec.eq_of_toNat_eq ‹_›

/-- Only an OAM DMA stalls the CPU. -/
theorem State.memWrite_stall {a : Addr} (h : a ≠ 0x4014#16) (v : Byte) (s : State) : (s.memWrite a v).2 = 0 := by
  unfold State.memWrite
  split
  case h_4 hr => exact absurd (region_eq_oamDma hr) h
  all_goals rfl

theorem oamDmaStall_eq (n : Nat) : Config.oamDmaStall n = 513 ∨ Config.oamDmaStall n = 514 := by
  unfold Config.oamDmaStall
  split
  · exact .inr rfl
  · exact .inl rfl

/-- Settles O38: the copy loop is 256 rounds counted from the front, and over a page of memory the rounds fill OAM from
the bytes of the first state. -/
theorem oamDmaCopies : Obligations.OamDmaCopies := by
  unfold Obligations.OamDmaCopies
  intro s page
  rw [State.memWrite_oamDma]
  refine ⟨⟨oamDmaAfter page s, rfl, rfl, fun i _ => rfl⟩, oamDmaStall_eq _, fun hpage => ?_,
    fun a v => ⟨fun ha => State.memWrite_stall ha v s, s.store_cyc a v⟩⟩
  rw [oamDmaAfter_of_memory hpage]
  exact ⟨copiedOam page s 256, rfl, fun k hk => copiedOam_read page s (Nat.le_refl 256) hk⟩

end Sys2Proof.Machine
end

section
/-! The encoding family, tiers 1 to 3: the decoder and the encoder undo each other (30_encoding.md R70 to R72, R83, R85). -/

namespace Sys2Proof.Laws.Encoding

/-! ## Decoding what was encoded -/

/-- The lemmas of the single instructions, put together. -/
theorem decode_encode (i : Instr) : Statement i :=
  match i with
  | .ldaIzx d => ldaIzx d | .ldaZp d => ldaZp d | .ldaImm d => ldaImm d | .ldaAbs a => ldaAbs a | .ldaIzy d => ldaIzy d
  | .ldaZpx d => ldaZpx d | .ldaAby a => ldaAby a | .ldaAbx a => ldaAbx a | .ldxImm d => ldxImm d | .ldxZp d => ldxZp d
  | .ldxAbs a => ldxAbs a | .ldxZpy d => ldxZpy d | .ldxAby a => ldxAby a | .ldyImm d => ldyImm d | .ldyZp d => ldyZp d
  | .ldyAbs a => ldyAbs a | .ldyZpx d => ldyZpx d | .ldyAbx a => ldyAbx a | .staIzx d => staIzx d | .staZp d => staZp d
  | .staAbs a => staAbs a | .staIzy d => staIzy d | .staZpx d => staZpx d | .staAby a => staAby a
  | .staAbx a => staAbx a | .stxZp d => stxZp d | .stxAbs a => stxAbs a | .stxZpy d => stxZpy d | .styZp d => styZp d
  | .styAbs a => styAbs a | .styZpx d => styZpx d | .tax => tax | .tay => tay | .txa => txa | .tya => tya | .tsx => tsx
  | .txs => txs | .pha => pha | .php => php | .pla => pla | .plp => plp | .adcIzx d => adcIzx d | .adcZp d => adcZp d
  | .adcImm d => adcImm d | .adcAbs a => adcAbs a | .adcIzy d => adcIzy d | .adcZpx d => adcZpx d
  | .adcAby a => adcAby a | .adcAbx a => adcAbx a | .sbcIzx d => sbcIzx d | .sbcZp d => sbcZp d | .sbcImm d => sbcImm d
  | .sbcAbs a => sbcAbs a | .sbcIzy d => sbcIzy d | .sbcZpx d => sbcZpx d | .sbcAby a => sbcAby a
  | .sbcAbx a => sbcAbx a | .cmpIzx d => cmpIzx d | .cmpZp d => cmpZp d | .cmpImm d => cmpImm d | .cmpAbs a => cmpAbs a
  | .cmpIzy d => cmpIzy d | .cmpZpx d => cmpZpx d | .cmpAby a => cmpAby a | .cmpAbx a => cmpAbx a
  | .cpxImm d => cpxImm d | .cpxZp d => cpxZp d | .cpxAbs a => cpxAbs a | .cpyImm d => cpyImm d | .cpyZp d => cpyZp d
  | .cpyAbs a => cpyAbs a | .incZp d => incZp d | .incAbs a => incAbs a | .incZpx d => incZpx d | .incAbx a => incAbx a
  | .inx => inx | .iny => iny | .decZp d => decZp d | .decAbs a => decAbs a | .decZpx d => decZpx d
  | .decAbx a => decAbx a | .dex => dex | .dey => dey | .andIzx d => andIzx d | .andZp d => andZp d
  | .andImm d => andImm d | .andAbs a => andAbs a | .andIzy d => andIzy d | .andZpx d => andZpx d
  | .andAby a => andAby a | .andAbx a => andAbx a | .oraIzx d => oraIzx d | .oraZp d => oraZp d | .oraImm d => oraImm d
  | .oraAbs a => oraAbs a | .oraIzy d => oraIzy d | .oraZpx d => oraZpx d | .oraAby a => oraAby a
  | .oraAbx a => oraAbx a | .eorIzx d => eorIzx d | .eorZp d => eorZp d | .eorImm d => eorImm d | .eorAbs a => eorAbs a
  | .eorIzy d => eorIzy d | .eorZpx d => eorZpx d | .eorAby a => eorAby a | .eorAbx a => eorAbx a | .bitZp d => bitZp d
  | .bitAbs a => bitAbs a | .aslZp d => aslZp d | .aslAcc => aslAcc | .aslAbs a => aslAbs a | .aslZpx d => aslZpx d
  | .aslAbx a => aslAbx a | .lsrZp d => lsrZp d | .lsrAcc => lsrAcc | .lsrAbs a => lsrAbs a | .lsrZpx d => lsrZpx d
  | .lsrAbx a => lsrAbx a | .rolZp d => rolZp d | .rolAcc => rolAcc | .rolAbs a => rolAbs a | .rolZpx d => rolZpx d
  | .rolAbx a => rolAbx a | .rorZp d => rorZp d | .rorAcc => rorAcc | .rorAbs a => rorAbs a | .rorZpx d => rorZpx d
  | .rorAbx a => rorAbx a | .bpl d => bpl d | .bmi d => bmi d | .bvc d => bvc d | .bvs d => bvs d | .bcc d => bcc d
  | .bcs d => bcs d | .bne d => bne d | .beq d => beq d | .jmpAbs a => jmpAbs a | .jsr a => jsr a
  | .jmpInd a => jmpInd a | .rts => rts | .clc => clc | .sec => sec | .cli => cli | .sei => sei | .clv => clv
  | .cld => cld | .sed => sed | .nop => nop | .brk => brk | .rti => rti | .dopZp04 d => dopZp04 d
  | .dopZpx14 d => dopZpx14 d | .dopZpx34 d => dopZpx34 d | .dopZp44 d => dopZp44 d | .dopZpx54 d => dopZpx54 d
  | .dopZp64 d => dopZp64 d | .dopZpx74 d => dopZpx74 d | .dopImm80 d => dopImm80 d | .dopImm82 d => dopImm82 d
  | .dopImm89 d => dopImm89 d | .dopImmC2 d => dopImmC2 d | .dopZpxD4 d => dopZpxD4 d | .dopImmE2 d => dopImmE2 d
  | .dopZpxF4 d => dopZpxF4 d | .topAbs a => topAbs a | .topAbx1C a => topAbx1C a | .topAbx3C a => topAbx3C a
  | .topAbx5C a => topAbx5C a | .topAbx7C a => topAbx7C a | .topAbxDC a => topAbxDC a | .topAbxFC a => topAbxFC a
  | .laxIzx d => laxIzx d | .laxZp d => laxZp d | .laxAbs a => laxAbs a | .laxIzy d => laxIzy d | .laxZpy d => laxZpy d
  | .laxAby a => laxAby a | .aaxIzx d => aaxIzx d | .aaxZp d => aaxZp d | .aaxAbs a => aaxAbs a | .aaxZpy d => aaxZpy d
  | .sloIzx d => sloIzx d | .sloZp d => sloZp d | .sloAbs a => sloAbs a | .sloIzy d => sloIzy d | .sloZpx d => sloZpx d
  | .sloAby a => sloAby a | .sloAbx a => sloAbx a | .rlaIzx d => rlaIzx d | .rlaZp d => rlaZp d | .rlaAbs a => rlaAbs a
  | .rlaIzy d => rlaIzy d | .rlaZpx d => rlaZpx d | .rlaAby a => rlaAby a | .rlaAbx a => rlaAbx a
  | .sreIzx d => sreIzx d | .sreZp d => sreZp d | .sreAbs a => sreAbs a | .sreIzy d => sreIzy d | .sreZpx d => sreZpx d
  | .sreAby a => sreAby a | .sreAbx a => sreAbx a | .rraIzx d => rraIzx d | .rraZp d => rraZp d | .rraAbs a => rraAbs a
  | .rraIzy d => rraIzy d | .rraZpx d => rraZpx d | .rraAby a => rraAby a | .rraAbx a => rraAbx a
  | .dcpIzx d => dcpIzx d | .dcpZp d => dcpZp d | .dcpAbs a => dcpAbs a | .dcpIzy d => dcpIzy d | .dcpZpx d => dcpZpx d
  | .dcpAby a => dcpAby a | .dcpAbx a => dcpAbx a | .iscIzx d => iscIzx d | .iscZp d => iscZp d | .iscAbs a => iscAbs a
  | .iscIzy d => iscIzy d | .iscZpx d => iscZpx d | .iscAby a => iscAby a | .iscAbx a => iscAbx a | .nop1A => nop1A
  | .nop3A => nop3A | .nop5A => nop5A | .nop7A => nop7A | .nopDA => nopDA | .nopFA => nopFA | .sbcImmEB d => sbcImmEB d
  | .unassigned op => unassigned op

end Sys2Proof.Laws.Encoding

namespace Sys2Proof.Machine

/-- Settles O1: each constructor has its lemma. -/
theorem decodeOfEncodeIsIdentity : Obligations.DecodeOfEncodeIsIdentity := Laws.Encoding.decode_encode

/-! ## Encoding what was decoded -/

/-- A shape of opcode `op` gives well-formed instructions only, each encoded as `op` and the operand bytes it was made of. -/
inductive Shape.EncodedAs (op : Byte) : Shape → Prop
  | implied {i : Instr} (wf : i.wf = true) (bytes : encode i = [op]) : EncodedAs op (.implied i)
  | byte {f : Byte → Instr} (wf : ∀ d, (f d).wf = true) (bytes : ∀ d, encode (f d) = [op, d]) : EncodedAs op (.byte f)
  | word {f : Addr → Instr} (wf : ∀ a, (f a).wf = true) (bytes : ∀ a, encode (f a) = [op, lowByte a, highByte a]) :
    EncodedAs op (.word f)

/-- The opcode map and the encoder agree at each of the 256 bytes. -/
theorem shapeOf_encodedAs (op : Byte) : Shape.EncodedAs op (shapeOf op) := by
  obtain ⟨k⟩ := op
  fin_cases k <;> constructor <;> intros <;> rfl

@[simp] theorem lowByte_joinBytes (hi lo : Byte) : lowByte (joinBytes hi lo) = lo := by
  apply BitVec.eq_of_toNat_eq
  rw [lowByte_toNat, joinBytes_toNat]
  omega

@[simp] theorem highByte_joinBytes (hi lo : Byte) : highByte (joinBytes hi lo) = hi := by
  apply BitVec.eq_of_toNat_eq
  rw [highByte_toNat, joinBytes_toNat]
  omega

/-- What a decoded byte sequence looks like: the opcode and, as its shape asks, no operand byte, one or two. -/
inductive Decoded : List Byte → Instr → List Byte → Prop
  | implied {op : Byte} {i : Instr} (rest : List Byte) (h : shapeOf op = .implied i) : Decoded (op :: rest) i rest
  | byte {op : Byte} {f : Byte → Instr} (d : Byte) (rest : List Byte) (h : shapeOf op = .byte f) :
    Decoded (op :: d :: rest) (f d) rest
  | word {op : Byte} {f : Addr → Instr} (lo hi : Byte) (rest : List Byte) (h : shapeOf op = .word f) :
    Decoded (op :: lo :: hi :: rest) (f (joinBytes hi lo)) rest

theorem decoded_of_decode {bytes rest : List Byte} {i : Instr} (h : decode bytes = .ok (i, rest)) :
    Decoded bytes i rest := by
  unfold decode at h
  split at h
  · cases h
  · split at h
    · cases h
      exact .implied _ ‹_›
    · cases h
      exact .byte _ _ ‹_›
    · cases h
      exact .word _ _ _ ‹_›
    · cases h

/-- Settles O2: what each shape decodes is what the encoder writes for it. -/
theorem encodeOfDecodeIsIdentity : Obligations.EncodeOfDecodeIsIdentity := by
  unfold Obligations.EncodeOfDecodeIsIdentity
  intro bytes i rest h
  cases decoded_of_decode h with
  | implied _ hop =>
    cases hop ▸ shapeOf_encodedAs _ with
    | implied wf bytes => exact ⟨wf, by rw [bytes, List.singleton_append]⟩
  | byte d _ hop =>
    cases hop ▸ shapeOf_encodedAs _ with
    | byte wf bytes => exact ⟨wf d, by rw [bytes]; rfl⟩
  | word lo hi _ hop =>
    cases hop ▸ shapeOf_encodedAs _ with
    | word wf bytes => exact ⟨wf _, by rw [bytes, lowByte_joinBytes, highByte_joinBytes]; rfl⟩

/-- Settles O3: the decoder evaluated on each sequence. -/
theorem wordsOfTheSpecDecode : Obligations.WordsOfTheSpecDecode := by
  unfold Obligations.WordsOfTheSpecDecode
  and_intros <;> rfl

/-! ## Fetching: the decoder fed by successive reads (30_encoding.md R90) -/

/-- The machine with PC at `pc`. -/
def State.withPc (pc : Addr) (s : State) : State := { s with pc := pc }

/-- No bus read sees PC. -/
theorem State.touch_withPc (a pc : Addr) (s : State) : (s.withPc pc).touch a = (s.touch a).withPc pc := by
  unfold State.touch
  split
  · unfold State.touchPpuRegister
    split <;> rfl
  all_goals rfl

theorem State.fetch8_withPc (pc : Addr) (s : State) :
    (s.withPc pc).fetch8 = (s.peek pc, (s.touch pc).withPc (pc + 1#16)) :=
  congrArg (fun t => (s.peek pc, t.withPc (pc + 1#16))) (s.touch_withPc pc pc)

/-- Where the bytes read from PC on are those of a well-formed instruction, fetching gives it, PC past its bytes. -/
theorem State.fetchInstr_of_readBytes {i : Instr} {pc : Addr} {s u : State} (hwf : i.wf = true)
    (h : readBytes i.length pc s = (encode i, u)) :
    (s.withPc pc).fetchInstr = (i, u.withPc (pc + BitVec.ofNat 16 i.length)) := by
  have hdec : Decoded (encode i) i [] := by
    simpa using decoded_of_decode (decodeOfEncodeIsIdentity i hwf [])
  unfold Instr.length at h ⊢
  generalize encode i = bytes at h hdec ⊢
  cases hdec with
  | implied _ hop =>
    simp only [List.length_cons, List.length_nil, readBytes, State.memRead, Prod.mk.injEq, List.cons.injEq] at h
    obtain ⟨⟨hpeek, -⟩, rfl⟩ := h
    simp [State.fetchInstr, State.fetch8_withPc, hpeek, hop]
  | byte d _ hop =>
    simp only [List.length_cons, List.length_nil, readBytes, State.memRead, Prod.mk.injEq, List.cons.injEq] at h
    obtain ⟨⟨hpeek, hd, -⟩, rfl⟩ := h
    simp [State.fetchInstr, State.fetch8_withPc, BitVec.add_assoc, hpeek, hop, hd]
  | word lo hi _ hop =>
    simp only [List.length_cons, List.length_nil, readBytes, State.memRead, BitVec.add_assoc, BitVec.reduceAdd,
      Prod.mk.injEq, List.cons.injEq] at h
    obtain ⟨⟨hpeek, hlo, hhi, -⟩, rfl⟩ := h
    simp [State.fetchInstr, State.fetch8_withPc, BitVec.add_assoc, hpeek, hop, hlo, hhi]

/-! ## The step -/

/-- A service due is what `ExecuteOp` does (60_exceptions.md R235). -/
theorem State.executeOp_of_due {s : State} {k : Interrupt} (h : s.due = some k) :
    s.executeOp = .next (State.service k { s with cyc := 0 }) := by
  have hdue : ({ s with cyc := 0 } : State).due = some k := h
  simp only [State.executeOp, hdue]

/-- With no service due, `ExecuteOp` is the instruction at PC (60_exceptions.md R235, R236). -/
theorem State.executeOp_of_not_due {s : State} (h : s.due = none) :
    s.executeOp = ({ s with cyc := 0 } : State).passMasked.runInstruction := by
  have hdue : ({ s with cyc := 0 } : State).due = none := h
  simp only [State.executeOp, hdue]

/-- Settles O5: the fetch reads the bytes one after the other, as `readBytes` does. -/
theorem stepRunsTheInstructionAtPc : Obligations.StepRunsTheInstructionAtPc := by
  unfold Obligations.StepRunsTheInstructionAtPc
  intro s i bytes u hwf hdue hread hbytes
  subst hbytes
  have hfetch : ({ s with cyc := 0 } : State).passMasked.fetchInstr = (i, u.withPc (s.pc + BitVec.ofNat 16 i.length)) :=
    State.fetchInstr_of_readBytes hwf hread
  unfold step State.round
  rw [State.executeOp_of_not_due hdue, State.runInstruction, hfetch]
  rfl

/-! ## The unassigned bytes (30_encoding.md R83) -/

theorem decode_unassigned {op : Byte} (h : op ∈ unassignedOpcodes) (rest : List Byte) :
    decode (op :: rest) = .ok (.unassigned op, rest) :=
  Laws.Encoding.unassigned op (List.contains_iff_mem.mpr h) rest

theorem exec_unassigned (op : Byte) (s : State) : exec (.unassigned op) s = .refused (.unassigned op) := by
  show execUnassigned op s = _
  unfold execUnassigned
  cases s.params.unassigned
  rfl

/-- Every assigned row of the opcode map has a meaning. -/
theorem exec_assigned {i : Instr} (h : ∀ op, i ≠ .unassigned op) (s : State) : ∃ t, exec i s = .next t := by
  cases i
  case unassigned op => exact absurd rfl (h op)
  all_goals exact ⟨_, rfl⟩

/-- One byte decodes as a whole instruction only by a shape without operand bytes. -/
theorem Decoded.shapeOf_single {op : Byte} {i : Instr} {rest : List Byte} : Decoded [op] i rest → shapeOf op = .implied i
  | .implied _ hop => hop

theorem shapeOf_unassigned {op : Byte} (h : op ∈ unassignedOpcodes) : shapeOf op = .implied (.unassigned op) :=
  (decoded_of_decode (decode_unassigned h [])).shapeOf_single

/-- The instruction fetched is one the decoder gives, and begins with the byte at PC. -/
theorem State.fetchInstr_encoded (s : State) :
    s.fetchInstr.1.wf = true ∧ (encode s.fetchInstr.1).head? = some (s.peek s.pc) := by
  have hop : s.fetch8.1 = s.peek s.pc := rfl
  have hshape := shapeOf_encodedAs (s.peek s.pc)
  simp only [State.fetchInstr, hop]
  generalize shapeOf (s.peek s.pc) = shape at hshape ⊢
  cases hshape with
  | implied wf bytes => simp [wf, bytes]
  | byte wf bytes => simp [wf, bytes]
  | word wf bytes => simp [wf, bytes]

theorem State.fetchInstr_of_unassigned {s : State} (h : s.peek s.pc ∈ unassignedOpcodes) :
    s.fetchInstr.1 = .unassigned (s.peek s.pc) := by
  have hop : s.fetch8.1 = s.peek s.pc := rfl
  simp only [State.fetchInstr, hop, shapeOf_unassigned h]

theorem State.fetchInstr_of_assigned {s : State} (h : s.peek s.pc ∉ unassignedOpcodes) (op : Byte) :
    s.fetchInstr.1 ≠ .unassigned op := by
  intro hfetch
  obtain ⟨hwf, hhead⟩ := s.fetchInstr_encoded
  rw [hfetch] at hwf hhead
  have hop : op = s.peek s.pc := Option.some.inj hhead
  exact h (hop ▸ List.contains_iff_mem.mp hwf)

theorem State.runInstruction_of_unassigned {s : State} (h : s.peek s.pc ∈ unassignedOpcodes) :
    s.runInstruction = .refused (.unassigned (s.peek s.pc)) := by
  have hrun : s.runInstruction = exec s.fetchInstr.1 s.fetchInstr.2 := rfl
  rw [hrun, State.fetchInstr_of_unassigned h, exec_unassigned]

theorem State.runInstruction_of_assigned {s : State} (h : s.peek s.pc ∉ unassignedOpcodes) :
    ∃ t, s.runInstruction = .next t :=
  exec_assigned (State.fetchInstr_of_assigned h) s.fetchInstr.2

/-- `ExecuteOp` stops at a fetched unassigned byte and nowhere else. -/
theorem State.executeOp_spec (s : State) :
    (s.due = none ∧ s.peek s.pc ∈ unassignedOpcodes ∧ s.executeOp = .refused (.unassigned (s.peek s.pc)))
      ∨ (¬ (s.due = none ∧ s.peek s.pc ∈ unassignedOpcodes) ∧ ∃ t, s.executeOp = .next t) := by
  cases hdue : s.due with
  | some k => exact .inr ⟨fun h => Option.some_ne_none k h.1, _, State.executeOp_of_due hdue⟩
  | none =>
    rw [State.executeOp_of_not_due hdue]
    by_cases hop : s.peek s.pc ∈ unassignedOpcodes
    · exact .inl ⟨rfl, hop, State.runInstruction_of_unassigned hop⟩
    · exact .inr ⟨fun h => hop h.2, State.runInstruction_of_assigned hop⟩

/-- Settles O4: `ExecuteOp` refuses the 25 bytes and nothing else, and the devices' part of the round stops nothing. -/
theorem unassignedBytesAreRefused : Obligations.UnassignedBytesAreRefused := by
  unfold Obligations.UnassignedBytesAreRefused
  refine ⟨fun op hop => ⟨decode_unassigned hop, exec_unassigned op⟩, fun s => ?_⟩
  unfold step State.round
  obtain ⟨hdue, hop, hexec⟩ | ⟨hnot, t, hexec⟩ := s.executeOp_spec
  · exact .inl ⟨hdue, hop, by rw [hexec]⟩
  · exact .inr ⟨hnot, t.advanceDevices, by rw [hexec]⟩

end Sys2Proof.Machine
end

section
/-! The encoding family, tier 2: effective addresses, branches, and the bytes each kind of instruction leaves readable as
before (30_encoding.md R76 to R84, R92; 44_control_transfer.md R170). -/

namespace Sys2Proof.Machine

/-! ## Effective addresses (30_encoding.md R76 to R82) -/

theorem zeroExtend16_eq (b : Byte) : zeroExtend16 b = BitVec.ofNat 16 b.toNat := by
  apply BitVec.eq_of_toNat_eq
  rw [zeroExtend16_toNat, BitVec.toNat_ofNat, Nat.mod_eq_of_lt (Nat.lt_trans b.isLt (by decide))]

/-- A pointer in page 0: its high byte comes from the same page (20_memory.md R43). -/
theorem State.zeroPagePointer_toNat (d : Byte) (s : State) :
    (s.zeroPagePointer d).toNat =
      (s.peek (BitVec.ofNat 16 d.toNat)).toNat + 256 * (s.peek (BitVec.ofNat 16 ((d.toNat + 1) % 256))).toNat := by
  unfold State.zeroPagePointer
  rw [joinBytes_toNat, zeroExtend16_eq, zeroExtend16_eq, BitVec.toNat_add]
  rfl

theorem add_zeroExtend16_toNat (a : Addr) (b : Byte) : (a + zeroExtend16 b).toNat = (a.toNat + b.toNat) % 65536 := by
  rw [BitVec.toNat_add, zeroExtend16_toNat]

/-- Two addresses differ in their page. -/
theorem highByte_bne_iff (a b : Addr) : (highByte a != highByte b) = true ↔ a.toNat / 256 ≠ b.toNat / 256 := by
  rw [bne_iff_ne, ne_eq, ← BitVec.toNat_inj, highByte_toNat, highByte_toNat]

/-- Settles O17: the zero-page sums, the pointers of page 0 and the indexed bases, each as a number. -/
theorem effectiveAddresses : Obligations.EffectiveAddresses := by
  unfold Obligations.EffectiveAddresses
  intro s d a
  dsimp only
  have hpointer := s.zeroPagePointer_toNat d
  refine ⟨zeroExtend16_toNat d, ?_, ?_, rfl, add_zeroExtend16_toNat a s.x, add_zeroExtend16_toNat a s.y, ?_, ?_,
    highByte_bne_iff _ _, highByte_bne_iff _ _, ?_, ?_⟩
  · exact (zeroExtend16_toNat _).trans (BitVec.toNat_add d s.x)
  · exact (zeroExtend16_toNat _).trans (BitVec.toNat_add d s.y)
  · show (s.zeroPagePointer (d + s.x)).toNat = _
    rw [State.zeroPagePointer_toNat, BitVec.toNat_add, Nat.mod_add_mod]
  · rw [← hpointer]
    exact add_zeroExtend16_toNat _ s.y
  · rw [← hpointer]
    exact highByte_bne_iff _ _
  · simp [MemOperand.crossed]

/-! ## Branches (44_control_transfer.md R170 to R178) -/

/-- Each branch is `Branch` of its flag's having its value. -/
theorem branchForms_exec {d op : Byte} {i : Instr} {k : Nat} {v : Bool} (h : (op, i, k, v) ∈ branchForms d) (s : State) :
    encode i = [op, d] ∧ exec i s = .next (s.branch (s.p.getLsbD k == v) d) := by
  simp only [branchForms, List.mem_cons, List.not_mem_nil, or_false, Prod.mk.injEq] at h
  rcases h with ⟨rfl, rfl, rfl, rfl⟩ | ⟨rfl, rfl, rfl, rfl⟩ | ⟨rfl, rfl, rfl, rfl⟩ | ⟨rfl, rfl, rfl, rfl⟩ |
    ⟨rfl, rfl, rfl, rfl⟩ | ⟨rfl, rfl, rfl, rfl⟩ | ⟨rfl, rfl, rfl, rfl⟩ | ⟨rfl, rfl, rfl, rfl⟩
  all_goals
    refine ⟨rfl, congrArg (fun c => Host.Outcome.next (s.branch c d)) ?_⟩
    simp [flagN, flagV, flagZ, flagC]

/-- The target of a branch: PC plus the signed offset (30_encoding.md R84). -/
theorem branchTarget_toNat (d : Byte) (s : State) :
    ((branchTarget d s).toNat : Int) = (s.pc.toNat + d.toInt) % 65536 := by
  have hoffset : ((signExtend16 d).toNat : Int) = d.toInt % 65536 := by
    unfold signExtend16
    rw [BitVec.signExtend, BitVec.toNat_ofInt]
    omega
  unfold branchTarget
  rw [BitVec.toNat_add]
  omega

theorem branchCrossed_iff (d : Byte) (s : State) :
    branchCrossed d s = true ↔ (branchTarget d s).toNat / 256 ≠ s.pc.toNat / 256 := highByte_bne_iff _ _

theorem State.branch_taken (d : Byte) (s : State) :
    (s.branch true d).pc = branchTarget d s
      ∧ (s.branch true d).cyc = s.cyc + if (branchTarget d s).toNat / 256 = s.pc.toNat / 256 then 3 else 4 := by
  refine ⟨rfl, ?_⟩
  show s.cyc + (2 + 1 + (branchCrossed d s).toNat) = _
  have hcrossed := branchCrossed_iff d s
  split
  · rw [Bool.eq_false_iff.mpr fun hc => hcrossed.mp hc ‹_›]
    rfl
  · rw [hcrossed.mpr ‹_›]
    rfl

theorem State.branch_outside (c : Bool) (d : Byte) (s : State) : SameOutside s (s.branch c d) := by
  cases c <;> exact .refl s

theorem State.branch_leaves (c : Bool) (d : Byte) (s : State) :
    Leaves [] [] s s { s.branch c d with pc := s.pc } := by
  cases c <;>
    exact .intro (.inr rfl) (.inr rfl) (.inr rfl) (.inr rfl) (fun _ _ => rfl) rfl (s.branch_outside _ d)

/-- Settles O31: the taken and the other case of `Branch`. -/
theorem branchesBranch : Obligations.BranchesBranch := by
  unfold Obligations.BranchesBranch
  intro s d op i k v h
  obtain ⟨hbytes, hexec⟩ := branchForms_exec h s
  refine ⟨hbytes, _, hexec, fun hv => ?_, fun hv => ?_, s.branch_leaves _ d⟩
  · obtain ⟨hpc, hcyc⟩ := s.branch_taken d
    rw [beq_iff_eq.mpr hv, hpc]
    exact ⟨branchTarget_toNat d s, hcyc⟩
  · rw [beq_false_of_ne hv]
    exact ⟨rfl, rfl⟩

/-! ## Bytes left readable as before (30_encoding.md R92) -/

/-- A bus read depends on nothing of the CPU. -/
theorem SameOutside.peek {s t : State} (h : SameOutside s t) (b : Addr) : t.peek b = s.peek b := by
  obtain ⟨-, hram, hppu, hapu, hcart, hports, -, -⟩ := h
  have hregister : ∀ r, t.peekPpuRegister r = s.peekPpuRegister r := by
    intro r
    unfold State.peekPpuRegister State.peekPpu
    rw [hppu, hcart]
  unfold State.peek
  rw [hram, hapu, hcart, hports]
  simp only [hregister]

/-- An operation on the CPU's registers after the operand was read. -/
theorem SameOutside.of_readOperand {o : Source} {base : Nat} {s t : State} (h : SameOutside (s.readOperand o base).2 t) :
    SameOutside (o.after s) t := by
  rw [State.readOperand_state] at h
  exact h

/-- Outside the CPU a reading form does no more than read its operand. -/
theorem readForms_exec {d : Byte} {a : Addr} {f : ReadForm} (h : f ∈ readForms d a) (s : State) :
    ∃ t, exec f.instr s = .next t ∧ SameOutside (f.operand.after s) t := by
  simp only [readForms, List.flatten_cons, List.flatten_nil, List.append_nil, List.mem_append] at h
  rcases h with h | h | h | h | h | h | h | h | h | h | h | h | h | h | h
  · exact ⟨_, (ldaForms_exec h s).2, .of_readOperand (.refl _)⟩
  · exact ⟨_, (ldxForms_exec h s).2, .of_readOperand (.refl _)⟩
  · exact ⟨_, (ldyForms_exec h s).2, .of_readOperand (.refl _)⟩
  · obtain ⟨-, o, ho, hexec⟩ := laxForms_exec h s
    exact ⟨_, hexec, ho ▸ .of_readOperand (.refl _)⟩
  · exact ⟨_, (adcForms_exec h s).2, .of_readOperand (.refl _)⟩
  · exact ⟨_, (sbcForms_exec h s).2, .of_readOperand (.refl _)⟩
  · exact ⟨_, (cmpForms_exec h s).2, .of_readOperand (.refl _)⟩
  · exact ⟨_, (cpxForms_exec h s).2, .of_readOperand (.refl _)⟩
  · exact ⟨_, (cpyForms_exec h s).2, .of_readOperand (.refl _)⟩
  · exact ⟨_, (andForms_exec h s).2, .of_readOperand (.refl _)⟩
  · exact ⟨_, (oraForms_exec h s).2, .of_readOperand (.refl _)⟩
  · exact ⟨_, (eorForms_exec h s).2, .of_readOperand (.refl _)⟩
  · exact ⟨_, (bitForms_exec h s).2, .of_readOperand (.refl _)⟩
  · obtain ⟨-, o, ho, hexec⟩ := dopForms_exec h s
    exact ⟨_, hexec, ho ▸ .of_readOperand (.refl _)⟩
  · obtain ⟨-, o, ho, hexec⟩ := topForms_exec h s
    exact ⟨_, hexec, ho ▸ .of_readOperand (.refl _)⟩

/-- A storing form is one store, of a byte made of the registers. -/
theorem storeForms_exec {d : Byte} {a : Addr} {f : MemForm} (h : f ∈ storeForms d a) (s : State) :
    ∃ v, exec f.instr s = .next (s.writeOperand f.operand f.cycles v) := by
  simp only [storeForms, List.flatten_cons, List.flatten_nil, List.append_nil, List.mem_append] at h
  rcases h with h | h | h | h
  · exact ⟨_, (staForms_exec h s).2⟩
  · exact ⟨_, (stxForms_exec h s).2⟩
  · exact ⟨_, (styForms_exec h s).2⟩
  · exact ⟨_, (aaxForms_exec h s).2⟩

/-- From `s` to `t` a byte was read at the operand's address and one stored back, and nothing else happened outside the CPU. -/
def MemOperand.Modified (o : MemOperand) (s t : State) : Prop :=
  ∃ v, SameOutside ((s.touch (o.address s)).memWrite (o.address s) v).1 t

theorem MemOperand.Modified.of_modifyOperand {o : MemOperand} {base : Nat} {s t : State} (g : Byte → Byte)
    (h : SameOutside (s.modifyOperand o base g).2 t) : o.Modified s t := by
  rw [State.modifyOperand_state] at h
  exact ⟨_, h⟩

section Modifying

variable (o : MemOperand) (base : Nat) (s : State)

theorem State.bumpOperand_modified (delta : Byte) : o.Modified s (s.bumpOperand delta o base) :=
  .of_modifyOperand (fun m => m + delta) (.refl _)

theorem State.shiftOperand_modified (sh : Shift) : o.Modified s (s.shiftOperand sh o base) :=
  .of_modifyOperand (fun m => (sh m (flagC s.p)).1) (.refl _)

theorem State.shiftThenLogic_modified (sh : Shift) (op : Byte → Byte → Byte) : o.Modified s (s.shiftThenLogic sh op o base) :=
  .of_modifyOperand (fun m => (sh m (flagC s.p)).1) (.refl _)

theorem State.rotateThenAdc_modified : o.Modified s (s.rotateThenAdc o base) :=
  .of_modifyOperand (fun m => (shiftRor m (flagC s.p)).1) (.refl _)

theorem State.decrementThenCompare_modified : o.Modified s (s.decrementThenCompare o base) :=
  .of_modifyOperand (fun m => m - 1#8) (.refl _)

theorem State.incrementThenSbc_modified : o.Modified s (s.incrementThenSbc o base) :=
  .of_modifyOperand (fun m => m + 1#8) (.refl _)

end Modifying

/-- Outside the CPU a read-modify-write form does no more than read its operand and store to it. -/
theorem modifyForms_exec {d : Byte} {a : Addr} {f : MemForm} (h : f ∈ modifyForms d a) (s : State) :
    ∃ t, exec f.instr s = .next t ∧ f.operand.Modified s t := by
  simp only [modifyForms, List.flatten_cons, List.flatten_nil, List.append_nil, List.mem_append] at h
  rcases h with h | h | h | h | h | h | h | h | h | h | h | h
  · exact ⟨_, (incForms_exec h s).2, s.bumpOperand_modified _ _ _⟩
  · exact ⟨_, (decForms_exec h s).2, s.bumpOperand_modified _ _ _⟩
  · exact ⟨_, (aslForms_exec h s).2, s.shiftOperand_modified _ _ _⟩
  · exact ⟨_, (lsrForms_exec h s).2, s.shiftOperand_modified _ _ _⟩
  · exact ⟨_, (rolForms_exec h s).2, s.shiftOperand_modified _ _ _⟩
  · exact ⟨_, (rorForms_exec h s).2, s.shiftOperand_modified _ _ _⟩
  · exact ⟨_, (sloForms_exec h s).2, s.shiftThenLogic_modified _ _ _ _⟩
  · exact ⟨_, (rlaForms_exec h s).2, s.shiftThenLogic_modified _ _ _ _⟩
  · exact ⟨_, (sreForms_exec h s).2, s.shiftThenLogic_modified _ _ _ _⟩
  · exact ⟨_, (rraForms_exec h s).2, s.rotateThenAdc_modified _ _⟩
  · exact ⟨_, (dcpForms_exec h s).2, s.decrementThenCompare_modified _ _⟩
  · exact ⟨_, (iscForms_exec h s).2, s.incrementThenSbc_modified _ _⟩

/-- A quiet instruction changes nothing outside the CPU. -/
theorem quietInstrs_outside {d : Byte} {a : Addr} {i : Instr} (h : i ∈ quietInstrs d a) (s : State) :
    HoldsNext (SameOutside s) (exec i s) := by
  simp only [quietInstrs, List.flatten_cons, List.flatten_nil, List.append_nil, List.mem_append, List.mem_cons,
    List.not_mem_nil, or_false] at h
  rcases h with (rfl | rfl | rfl | rfl | rfl | rfl | rfl | rfl | rfl | rfl | rfl | rfl | rfl | rfl | rfl | rfl | rfl) |
    (rfl | rfl | rfl | rfl | rfl | rfl | rfl | rfl | rfl | rfl | rfl) | (rfl | rfl | rfl | rfl | rfl | rfl) | h
  case inr.inr.inr =>
    rcases h with rfl | rfl | rfl | rfl | rfl | rfl | rfl | rfl <;> exact s.branch_outside _ d
  all_goals exact SameOutside.refl s

/-- Settles O18: what each kind of instruction does outside the CPU, and what its bus accesses leave readable. -/
theorem otherBytesOfMemoryAreKept : Obligations.OtherBytesOfMemoryAreKept := by
  unfold Obligations.OtherBytesOfMemoryAreKept
  intro d a b s t
  refine ⟨fun f hf ht hread => ?_, fun f hf ht hwrite => ?_, fun f hf ht hread hwrite => ?_, fun i hi ht => ?_⟩
  · obtain ⟨u, hexec, hu⟩ := readForms_exec hf s
    cases hexec.symm.trans ht
    rw [hu.peek b]
    cases ho : f.operand with
    | imm _ => rfl
    | mem o => exact State.peek_touch s (hread o ho)
  · obtain ⟨v, hexec⟩ := storeForms_exec hf s
    cases hexec.symm.trans ht
    rw [State.writeOperand_state]
    exact State.peek_memWrite v s hwrite
  · obtain ⟨u, hexec, v, hu⟩ := modifyForms_exec hf s
    cases hexec.symm.trans ht
    rw [hu.peek b]
    exact (State.peek_memWrite v _ hwrite).trans (State.peek_touch s hread)
  · exact ((quietInstrs_outside hi s).of_eq ht).peek b

end Sys2Proof.Machine
end

section
/-! The load, store and transfer family, tier 2: every load, transfer and register count is one write of registers with N
and Z, and every store one bus write (40_load_store_transfer.md R101 to R112; 42_arithmetic.md R139, R140, R142, R143;
46_undocumented.md R213, R214). -/

namespace Sys2Proof.Machine

theorem SameCpu.reg {s t : State} (h : SameCpu s t) (r : CpuReg) : t.reg r = s.reg r := by
  cases r
  exacts [h.a, h.x, h.y, h.sp]

theorem SameCpu.memWrite (a : Addr) (b : Byte) (s : State) : SameCpu s (s.memWrite a b).1 := by constructor <;> simp

theorem Source.after_sameCpu (o : Source) (s : State) : SameCpu s (o.after s) := by constructor <;> simp

/-- A machine with the CPU of `s`, its cycles counted, keeps all of the CPU. -/
theorem SameCpu.leaves {s u : State} (h : SameCpu s u) (n : Nat) : Leaves [] [] s u (u.charge n) :=
  ⟨fun r _ => h.reg r, fun i _ => congrArg (·.getLsbD i) h.p, h.pc, .refl u⟩

/-! ## Writing registers with N and Z -/

/-- `v` written to each of `regs`, `SetNZ(v)`, and `n` cycles counted. -/
def State.loadInto (regs : List CpuReg) (v : Byte) (n : Nat) (s : State) : State :=
  { s.charge n with
    a := if .a ∈ regs then v else s.a
    x := if .x ∈ regs then v else s.x
    y := if .y ∈ regs then v else s.y
    sp := if .sp ∈ regs then v else s.sp
    p := putNZ v s.p }

theorem State.loadInto_reg (regs : List CpuReg) (v : Byte) (n : Nat) (s : State) (r : CpuReg) :
    (s.loadInto regs v n).reg r = if r ∈ regs then v else s.reg r := by
  cases r <;> rfl

/-- What such a write shows, and its frame, from a state `u` with the CPU's registers of `s`. -/
theorem State.loadInto_spec (regs : List CpuReg) (v : Byte) (n : Nat) {s u : State} (h : SameCpu s u) :
    (∀ r ∈ regs, (u.loadInto regs v n).reg r = v) ∧ ShowsNZ v (u.loadInto regs v n)
      ∧ (u.loadInto regs v n).cyc = u.cyc + n ∧ Leaves regs [7, 1] s u (u.loadInto regs v n) := by
  refine ⟨fun r hr => ?_, shows_putNZ rfl, rfl, fun r hr => ?_, fun i hi => ?_, h.pc, .refl u⟩
  · rw [State.loadInto_reg, if_pos hr]
  · rw [State.loadInto_reg, if_neg hr, h.reg r]
  · exact (putNZ_other hi).trans (congrArg (·.getLsbD i) h.p)

/-! ## Loads (40_load_store_transfer.md R101 to R103, 46_undocumented.md R213) -/

theorem State.loadA_eq_loadInto (o : Source) (base : Nat) (s : State) :
    s.loadA o base = (o.after s).loadInto [.a] (o.value s) (base + (o.crosses s).toNat) := by
  simp [State.loadA_eq, State.loadInto, State.charge]

theorem State.loadX_eq_loadInto (o : Source) (base : Nat) (s : State) :
    s.loadX o base = (o.after s).loadInto [.x] (o.value s) (base + (o.crosses s).toNat) := by
  simp [State.loadX_eq, State.loadInto, State.charge]

theorem State.loadY_eq_loadInto (o : Source) (base : Nat) (s : State) :
    s.loadY o base = (o.after s).loadInto [.y] (o.value s) (base + (o.crosses s).toNat) := by
  simp [State.loadY_eq, State.loadInto, State.charge]

theorem State.loadAX_eq_loadInto (o : MemOperand) (base : Nat) (s : State) :
    s.loadAX o base =
      ((Source.mem o).after s).loadInto [.a, .x] ((Source.mem o).value s) (base + ((Source.mem o).crosses s).toNat) := by
  simp [State.loadAX_eq, State.loadInto, State.charge]

/-- The state a reading form ends in that loads its operand into `regs`. -/
def ReadForm.loaded (f : ReadForm) (regs : List CpuReg) (s : State) : State :=
  (f.operand.after s).loadInto regs (f.operand.value s) (f.cost s)

/-- Each list of load forms loads the registers of its rule. -/
theorem loadForms_exec {d : Byte} {a : Addr} {forms : List ReadForm} {regs : List CpuReg}
    (h : (forms, regs) ∈
      [(ldaForms d a, [.a]), (ldxForms d a, [.x]), (ldyForms d a, [.y]), (laxForms d a, [CpuReg.a, .x])])
    {f : ReadForm} (hf : f ∈ forms) (s : State) : f.Encoded ∧ exec f.instr s = .next (f.loaded regs s) := by
  simp only [List.mem_cons, List.not_mem_nil, or_false, Prod.mk.injEq] at h
  unfold ReadForm.loaded ReadForm.cost
  rcases h with ⟨rfl, rfl⟩ | ⟨rfl, rfl⟩ | ⟨rfl, rfl⟩ | ⟨rfl, rfl⟩
  · rw [← State.loadA_eq_loadInto]
    exact ldaForms_exec hf s
  · rw [← State.loadX_eq_loadInto]
    exact ldxForms_exec hf s
  · rw [← State.loadY_eq_loadInto]
    exact ldyForms_exec hf s
  · obtain ⟨hbytes, o, ho, hexec⟩ := laxForms_exec hf s
    rw [ho, ← State.loadAX_eq_loadInto]
    exact ⟨hbytes, hexec⟩

/-- Settles O19: every load writes registers with N and Z after reading its operand, which leaves the CPU alone. -/
theorem loadsLoad : Obligations.LoadsLoad := by
  unfold Obligations.LoadsLoad
  intro d a forms regs h f hf s
  obtain ⟨hbytes, hexec⟩ := loadForms_exec h hf s
  obtain ⟨hregs, hnz, hcyc, hleaves⟩ :=
    State.loadInto_spec regs (f.operand.value s) (f.cost s) (f.operand.after_sameCpu s)
  rw [Source.after_cyc] at hcyc
  exact ⟨hbytes, _, hexec, hregs, hnz, hcyc, hleaves⟩

/-! ## Stores (40_load_store_transfer.md R104 to R106, 46_undocumented.md R214) -/

/-- The state a form ends in that stores `v` without a read, its cycles and the stall counted. -/
theorem MemForm.writeOperand_eq (f : MemForm) (v : Byte) (s : State) :
    s.writeOperand f.operand f.cycles v = (f.stored v s).charge (f.cycles + f.stall v s) :=
  s.writeOperand_state f.operand f.cycles v

/-- Each list of store forms stores the byte of its rule. -/
theorem storeForms_exec_stored {d : Byte} {a : Addr} {s : State} {forms : List MemForm} {v : Byte}
    (h : (forms, v) ∈ [(staForms d a, s.a), (stxForms d a, s.x), (styForms d a, s.y), (aaxForms d a, s.a &&& s.x)])
    {f : MemForm} (hf : f ∈ forms) :
    f.Encoded ∧ exec f.instr s = .next ((f.stored v s).charge (f.cycles + f.stall v s)) := by
  simp only [List.mem_cons, List.not_mem_nil, or_false, Prod.mk.injEq] at h
  rw [← f.writeOperand_eq]
  rcases h with ⟨rfl, rfl⟩ | ⟨rfl, rfl⟩ | ⟨rfl, rfl⟩ | ⟨rfl, rfl⟩
  · exact staForms_exec hf s
  · exact stxForms_exec hf s
  · exact styForms_exec hf s
  · exact aaxForms_exec hf s

/-- Settles O20: every store is one bus write, which leaves the CPU alone, and a charge of cycles. -/
theorem storesStore : Obligations.StoresStore := by
  unfold Obligations.StoresStore
  intro d a s forms v h f hf
  obtain ⟨hbytes, hexec⟩ := storeForms_exec_stored h hf
  have hcpu : SameCpu s (f.stored v s) := .memWrite _ v s
  have hcyc : (f.stored v s).cyc = s.cyc := State.memWrite_cyc _ v s
  refine ⟨hbytes, _, hexec, ?_, hcpu.leaves _⟩
  rw [State.charge_cyc, hcyc, Nat.add_assoc]

/-! ## Transfers and counts (40_load_store_transfer.md R107 to R112; 42_arithmetic.md R139, R140, R142, R143) -/

theorem transferForms_exec {f : RegisterForm} (h : f ∈ transferForms) (s : State) :
    encode f.instr = [f.opcode] ∧ exec f.instr s = .next (s.loadInto [f.dest] (f.value s) 2) := by
  simp only [transferForms, List.mem_cons, List.not_mem_nil, or_false] at h
  rcases h with rfl | rfl | rfl | rfl | rfl <;> exact ⟨rfl, rfl⟩

/-- One less modulo 256 is 255 more. -/
theorem sub_one_eq_ofNat (b : Byte) : b - 1#8 = BitVec.ofNat 8 (b.toNat + 255) := by bv_omega

theorem countForms_exec {f : RegisterForm} (h : f ∈ countForms) (s : State) :
    encode f.instr = [f.opcode] ∧ exec f.instr s = .next (s.loadInto [f.dest] (f.value s) 2) := by
  simp only [countForms, ← sub_one_eq_ofNat, List.mem_cons, List.not_mem_nil, or_false] at h
  rcases h with rfl | rfl | rfl | rfl <;> exact ⟨rfl, rfl⟩

/-- Settles O21: the transfers that set flags and the counts write one register with N and Z; TXS writes S alone. -/
theorem transfersAndCounts : Obligations.TransfersAndCounts := by
  unfold Obligations.TransfersAndCounts
  intro s
  refine ⟨fun f hf => ?_, rfl, _, rfl, rfl, rfl, ?_⟩
  · obtain ⟨hbytes, hexec⟩ := (List.mem_append.mp hf).elim (transferForms_exec · s) (countForms_exec · s)
    obtain ⟨hregs, hnz, hcyc, hleaves⟩ := State.loadInto_spec [f.dest] (f.value s) 2 (.refl s)
    exact ⟨hbytes, _, hexec, hregs _ List.mem_cons_self, hnz, hcyc, hleaves⟩
  · exact .intro (.inr rfl) (.inr rfl) (.inr rfl) (.inl List.mem_cons_self) (fun _ _ => rfl) rfl (.refl s)

end Sys2Proof.Machine
end

section
/-! The stack family, tier 2: a push is one RAM write and a pull one RAM read, S aside (10_state.md R11, R15;
41_stack.md R121 to R124). -/

namespace Sys2Proof.Machine

/-! ## A push -/

/-- The byte just pushed is what its slot reads. -/
theorem State.peek_push_same (v : Byte) (s : State) : (s.push v).peek (stackAddress s.sp) = v := by
  rw [State.push_eq, State.peek_stack]
  exact Memory.read_write_same

/-- A push is one bus write, so it leaves readable what that write does. -/
theorem State.peek_push_other {b : Addr} (v : Byte) (s : State) (h : writeChanges (stackAddress s.sp) b = false) :
    (s.push v).peek b = s.peek b := by
  have hwrite : SameOutside (s.memWrite (stackAddress s.sp) v).1 (s.push v) := .refl _
  rw [hwrite.peek b]
  exact State.peek_memWrite v s h

/-- A push with its cycles counted changes S, the cycle count and RAM. -/
theorem State.push_leaves (n : Nat) (v : Byte) (s : State) :
    Leaves [.sp] [] s { s with ram := ((s.charge n).push v).ram } ((s.charge n).push v) := by
  rw [State.push_eq]
  exact .intro (.inr rfl) (.inr rfl) (.inr rfl) (.inl List.mem_cons_self) (fun _ _ => rfl) rfl (.refl _)

theorem State.push_cyc (n : Nat) (v : Byte) (s : State) : ((s.charge n).push v).cyc = s.cyc + n := by
  rw [State.push_eq]
  rfl

/-- PHA and PHP each push the byte of its rule, in 3 cycles. -/
theorem pushForms_exec {s : State} {op v : Byte} {i : Instr}
    (h : (op, i, v) ∈ [(0x48#8, .pha, s.a), (0x08#8, .php, s.p ||| 0x30#8)]) :
    encode i = [op] ∧ exec i s = .next ((s.charge 3).push v) := by
  simp only [List.mem_cons, List.not_mem_nil, or_false, Prod.mk.injEq] at h
  rcases h with ⟨rfl, rfl, rfl⟩ | ⟨rfl, rfl, rfl⟩ <;> exact ⟨rfl, rfl⟩

/-! ## A pull -/

/-- A pull returns what its slot reads and changes nothing but S. -/
theorem State.pull_eq_peek (s : State) : s.pull = (s.peek (stackAddress (s.sp + 1#8)), { s with sp := s.sp + 1#8 }) := by
  rw [State.pull_eq, State.peek_stack]

theorem exec_pla (s : State) :
    exec .pla s = .next { s.charge 4 with
      a := s.peek (stackAddress (s.sp + 1#8))
      sp := s.sp + 1#8
      p := putNZ (s.peek (stackAddress (s.sp + 1#8))) s.p } := by
  show execPla s = _
  unfold execPla
  rw [State.pull_eq_peek]
  rfl

theorem exec_plp (s : State) :
    exec .plp s = .next { s.charge 4 with
      sp := s.sp + 1#8
      p := pulledFlags (s.peek (stackAddress (s.sp + 1#8))) } := by
  show execPlp s = _
  unfold execPlp
  rw [State.pull_eq_peek]
  rfl

/-- Every bit of a pulled flag byte but 4 and 5 is the stacked one. -/
theorem pulledFlags_other (m : Byte) {i : Nat} (h4 : i ≠ 4) (h5 : i ≠ 5) : (pulledFlags m).getLsbD i = m.getLsbD i := by
  rcases Nat.lt_or_ge i 8 with hi | hi
  · have hmasks : ∀ i < 8, i ≠ 4 → i ≠ 5 → (0xCF#8).getLsbD i = true ∧ (0x20#8).getLsbD i = false := by decide
    obtain ⟨hkept, hadded⟩ := hmasks i hi h4 h5
    rw [pulledFlags, BitVec.getLsbD_or, BitVec.getLsbD_and, hkept, hadded, Bool.and_true, Bool.or_false]
  · rw [BitVec.getLsbD_of_ge _ i hi, BitVec.getLsbD_of_ge _ i hi]

/-- Settles O14: PHA and PHP are one push; PLA and PLP write the pulled byte to A with N and Z, or to P. -/
theorem pushesAndPulls : Obligations.PushesAndPulls := by
  unfold Obligations.PushesAndPulls
  intro s
  refine ⟨fun op i v h => ?_, rfl, rfl, ?_, ?_⟩
  · obtain ⟨hbytes, hexec⟩ := pushForms_exec h
    refine ⟨hbytes, _, hexec, State.peek_push_same v (s.charge 3), rfl, s.push_cyc 3 v, s.push_leaves 3 v,
      fun b hb => ?_⟩
    have hslot : writeChanges (stackAddress s.sp) b = false := by simpa using hb 0 Nat.one_pos
    have hcharge : SameOutside s (s.charge 3) := .refl s
    exact (State.peek_push_other v (s.charge 3) hslot).trans (hcharge.peek b)
  · refine ⟨_, exec_pla s, rfl, shows_putNZ rfl, rfl, rfl, ?_⟩
    exact .intro (.inl (by decide)) (.inr rfl) (.inr rfl) (.inl (by decide)) (fun _ hi => putNZ_other hi) rfl (.refl s)
  · obtain ⟨h5, h4⟩ := pulledFlags_ok (s.peek (stackAddress (s.sp + 1#8)))
    exact ⟨_, exec_plp s, fun _ => pulledFlags_other _, h4, h5, rfl, rfl, rfl, rfl, rfl, rfl, .refl s⟩

end Sys2Proof.Machine
end

section
/-! The arithmetic family, tier 2: ADC and SBC in binary and in decimal, the compares, and INC and DEC
(42_arithmetic.md R130 to R138, R141; 46_undocumented.md R222). -/

namespace Sys2Proof.Machine

/-! ## ADC and SBC (42_arithmetic.md R130 to R133) -/

/-- Where X, Y, S and PC are outside the footprint, only A and the flags of the footprint can have changed in the CPU. -/
theorem Footprint.Covers.leaves {regs : List CpuReg} {flags : List Nat} {s u t : State}
    (h : Footprint.Covers { flags := flags } s t) (ha : .a ∈ regs ∨ t.a = s.a) (ho : SameOutside u t) :
    Leaves regs flags s u t :=
  .intro ha (.inr (h.x rfl)) (.inr (h.y rfl)) (.inr (h.sp rfl)) h.flags (h.pc rfl) ho

theorem putC_flagC (p : Byte) : putC (flagC p) p = p := by
  apply BitVec.eq_of_getLsbD_eq
  intro i _
  rw [putC, getLsbD_putFlag]
  split
  case isTrue h =>
    obtain ⟨rfl, -⟩ := h
    rfl
  case isFalse => rfl

theorem State.adcOperand_added (o : Source) (base : Nat) (s : State) :
    s.Added (flagC s.p) (o.value s) (s.adcOperand o base) := by
  rw [State.adcOperand_eq]
  exact (State.adc_added _ (o.after_a s) (o.after_params s) ((o.after_p s).trans (putC_flagC s.p).symm)).1

theorem State.sbcOperand_subtracted (o : Source) (base : Nat) (s : State) :
    s.Subtracted (flagC s.p) (o.value s) (s.sbcOperand o base) := by
  rw [State.sbcOperand_eq]
  exact (State.sbc_subtracted _ (o.after_a s) (o.after_params s) (o.after_p s)).1

theorem State.adcOperand_cyc (f : ReadForm) (s : State) : (s.adcOperand f.operand f.cycles).cyc = s.cyc + f.cost s := by
  simp [State.adcOperand_eq, ReadForm.cost]

theorem State.sbcOperand_cyc (f : ReadForm) (s : State) : (s.sbcOperand f.operand f.cycles).cyc = s.cyc + f.cost s := by
  simp [State.sbcOperand_eq, ReadForm.cost]

/-- Settles O22: every form is `Adc` of its operand, in the state after the operand was read. -/
theorem adcAdds : Obligations.AdcAdds := by
  unfold Obligations.AdcAdds
  intro d a f hf s
  obtain ⟨hbytes, hexec⟩ := adcForms_exec hf s
  exact ⟨hbytes, _, hexec, s.adcOperand_added _ _, s.adcOperand_cyc f,
    (s.adcOperand_covers _ _).leaves (.inl List.mem_cons_self) (.of_readOperand (.refl _))⟩

/-- Settles O23: every form is `Sbc` of its operand, in the state after the operand was read. -/
theorem sbcSubtracts : Obligations.SbcSubtracts := by
  unfold Obligations.SbcSubtracts
  intro d a f hf s
  obtain ⟨hbytes, hexec⟩ := sbcForms_exec hf s
  exact ⟨hbytes, _, hexec, s.sbcOperand_subtracted _ _, s.sbcOperand_cyc f,
    (s.sbcOperand_covers _ _).leaves (.inl List.mem_cons_self) (.of_readOperand (.refl _))⟩

/-! ## Decimal mode with the default functions (42_arithmetic.md R131) -/

theorem bcd_of_digits {b : Byte} {h l : Nat} (hh : h < 10) (hl : l < 10) (hb : b.toNat = h * 16 + l) :
    IsBcd b ∧ bcdValue b = h * 10 + l := by
  unfold IsBcd bcdValue
  omega

/-- The low digit of a sum, corrected: the digit beyond 10 and the carry into the high digit. -/
theorem addDecimal_lowDigit {n : Nat} (hn : n < 20) :
    (if n ≥ 10 then (n + 6) % 16 + 16 else n) = n / 10 * 16 + n % 10 := by
  split <;> omega

/-- The high digit of a sum, corrected: the digit beyond 10, and the carry out of the byte. -/
theorem addDecimal_highDigit {h l : Nat} (hh : h < 20) (hl : l < 10) :
    (if h * 16 + l ≥ 160 then h * 16 + l + 96 else h * 16 + l) % 256 = h % 10 * 16 + l := by
  rcases Nat.lt_or_ge h 10 with h10 | h10
  · rw [if_neg (by omega), Nat.mod_eq_of_lt h10]
    omega
  · have hdigit : h % 10 = h - 10 := by omega
    rw [if_pos (by omega), hdigit]
    omega

/-- The two digits of a decimal sum and its carry, each from the sums of the operands' digits. -/
theorem addDecimal_digits {a m : Byte} (c : Bool) (ha : IsBcd a) (hm : IsBcd m) {low high : Nat}
    (hlow : a.toNat % 16 + m.toNat % 16 + c.toNat = low) (hhigh : a.toNat / 16 + m.toNat / 16 + low / 10 = high) :
    (addDecimal a m c).value.toNat = high % 10 * 16 + low % 10 ∧ (addDecimal a m c).carry = decide (10 ≤ high) := by
  obtain ⟨hal, hah⟩ := ha
  obtain ⟨hml, hmh⟩ := hm
  have hc := c.toNat_le
  have ht : a.toNat / 16 * 16 + m.toNat / 16 * 16 + (low / 10 * 16 + low % 10) = high * 16 + low % 10 := by omega
  have hdigit : low % 10 < 10 := Nat.mod_lt _ (by decide)
  have hbound : high < 20 := by omega
  simp only [addDecimal, hlow]
  rw [addDecimal_lowDigit (by omega), ht, BitVec.toNat_ofNat]
  refine ⟨addDecimal_highDigit hbound hdigit, decide_eq_decide.mpr ?_⟩
  split <;> omega

theorem addDecimal_spec {a m : Byte} (c : Bool) (ha : IsBcd a) (hm : IsBcd m) :
    IsBcd (addDecimal a m c).value ∧ bcdValue (addDecimal a m c).value = (bcdValue a + bcdValue m + c.toNat) % 100
      ∧ ((addDecimal a m c).carry = true ↔ 100 ≤ bcdValue a + bcdValue m + c.toNat) := by
  obtain ⟨hdigits, hcarry⟩ := addDecimal_digits c ha hm rfl rfl
  obtain ⟨hbcd, hvalue⟩ := bcd_of_digits (Nat.mod_lt _ (by decide)) (Nat.mod_lt _ (by decide)) hdigits
  rw [hvalue, hcarry, decide_eq_true_iff]
  refine ⟨hbcd, ?_, ?_⟩ <;> unfold bcdValue <;> omega

/-- The low digit of a difference, corrected: the digit that is left and the borrow from the high digit. -/
theorem subDecimal_lowDigit {n : Int} (hn : -10 ≤ n) (hn' : n < 10) :
    (if n < 0 then (n - 6) % 16 - 16 else n) = n / 10 * 16 + n % 10 := by
  split <;> omega

/-- The high digit of a difference, corrected: the digit that is left, and the borrow from beyond the byte. -/
theorem subDecimal_highDigit {h l : Int} (hh : -10 ≤ h ∧ h < 10) (hl : 0 ≤ l ∧ l < 10) :
    (if h * 16 + l < 0 then h * 16 + l - 96 else h * 16 + l) % 256 = h % 10 * 16 + l := by
  rcases Int.lt_or_le h 0 with h0 | h0
  · have hdigit : h % 10 = h + 10 := by omega
    rw [if_pos (by omega), hdigit]
    omega
  · rw [if_neg (by omega), Int.emod_eq_of_lt h0 hh.2]
    omega

/-- The two digits of a decimal difference, each from the differences of the operands' digits. The carry, which is the one
of the binary difference, is set exactly when the high digit needs no borrow. -/
theorem subDecimal_digits {a m : Byte} (c : Bool) (ha : IsBcd a) (hm : IsBcd m) {low high : Int}
    (hlow : (a.toNat % 16 : Nat) - ((m.toNat % 16 : Nat) : Int) - (1 - (c.toNat : Int)) = low)
    (hhigh : (a.toNat / 16 : Nat) - ((m.toNat / 16 : Nat) : Int) + low / 10 = high) :
    (subDecimal a m c).value.toNat = (high % 10).toNat * 16 + (low % 10).toNat
      ∧ (subDecimal a m c).carry = decide (0 ≤ high) := by
  obtain ⟨hal, hah⟩ := ha
  obtain ⟨hml, hmh⟩ := hm
  have hc := c.toNat_le
  have hr : ((a.toNat / 16 * 16 : Nat) : Int) - (m.toNat / 16 * 16 : Nat) + (low / 10 * 16 + low % 10)
      = high * 16 + low % 10 := by omega
  have hborrow : (0 : Int) ≤ (a.toNat : Int) - m.toNat - (1 - (c.toNat : Int)) ↔ 0 ≤ high := by omega
  have hdigit : 0 ≤ low % 10 ∧ low % 10 < 10 := by omega
  have hbound : -10 ≤ high ∧ high < 10 := by omega
  simp only [subDecimal, hlow, hborrow, and_true]
  rw [subDecimal_lowDigit (by omega) (by omega), hr, BitVec.toNat_ofInt]
  have hresult := subDecimal_highDigit hbound hdigit
  omega

theorem subDecimal_spec {a m : Byte} (c : Bool) (ha : IsBcd a) (hm : IsBcd m) :
    IsBcd (subDecimal a m c).value
      ∧ (bcdValue (subDecimal a m c).value : Int) = ((bcdValue a : Int) - bcdValue m - (1 - c.toNat)) % 100
      ∧ ((subDecimal a m c).carry = true ↔ 0 ≤ (bcdValue a : Int) - bcdValue m - (1 - c.toNat)) := by
  obtain ⟨hdigits, hcarry⟩ := subDecimal_digits c ha hm rfl rfl
  obtain ⟨hbcd, hvalue⟩ := bcd_of_digits (by omega) (by omega) hdigits
  rw [hvalue, hcarry, decide_eq_true_iff]
  refine ⟨hbcd, ?_, ?_⟩ <;> unfold bcdValue <;> omega

/-- Settles O24: outside binary mode A and C are those of the default functions, computed digit by digit. -/
theorem decimalModeIsDecimal : Obligations.DecimalModeIsDecimal := by
  unfold Obligations.DecimalModeIsDecimal
  intro d a f s henable hfunctions hd ha hm
  have hdecimal : ¬ s.InBinary := by simp [State.InBinary, henable, hd]
  refine ⟨fun hf => ?_, fun hf => ?_⟩
  · obtain ⟨-, hexec⟩ := adcForms_exec hf s
    obtain ⟨hvalue, hcarry, -⟩ := (s.adcOperand_added f.operand f.cycles).2 hdecimal
    rw [decimalSum, hfunctions] at hvalue hcarry
    refine ⟨_, hexec, ?_⟩
    rw [hvalue, hcarry]
    exact addDecimal_spec (flagC s.p) ha hm
  · obtain ⟨-, hexec⟩ := sbcForms_exec hf s
    obtain ⟨hvalue, hcarry, -⟩ := (s.sbcOperand_subtracted f.operand f.cycles).2 hdecimal
    rw [decimalDifference, hfunctions] at hvalue hcarry
    refine ⟨_, hexec, ?_⟩
    rw [hvalue, hcarry]
    exact subDecimal_spec (flagC s.p) ha hm

/-! ## Compares (42_arithmetic.md R134 to R137) -/

theorem State.compareOperand_shows (r : Byte) (o : Source) (base : Nat) (s : State) :
    ShowsCompare r (o.value s) (s.compareOperand r o base) := by
  rw [State.compareOperand_eq]
  exact compare_spec r _ _

theorem State.compareOperand_a (r : Byte) (o : Source) (base : Nat) (s : State) :
    (s.compareOperand r o base).a = s.a := by
  simp [State.compareOperand_eq]

theorem State.compareOperand_cyc (r : Byte) (f : ReadForm) (s : State) :
    (s.compareOperand r f.operand f.cycles).cyc = s.cyc + f.cost s := by
  simp [State.compareOperand_eq, ReadForm.cost]

/-- Each list of compare forms compares the register of its rule. -/
theorem compareForms_exec {d : Byte} {a : Addr} {s : State} {forms : List ReadForm} {r : Byte}
    (h : (forms, r) ∈ [(cmpForms d a, s.a), (cpxForms d a, s.x), (cpyForms d a, s.y)]) {f : ReadForm} (hf : f ∈ forms) :
    f.Encoded ∧ exec f.instr s = .next (s.compareOperand r f.operand f.cycles) := by
  simp only [List.mem_cons, List.not_mem_nil, or_false, Prod.mk.injEq] at h
  rcases h with ⟨rfl, rfl⟩ | ⟨rfl, rfl⟩ | ⟨rfl, rfl⟩
  · exact cmpForms_exec hf s
  · exact cpxForms_exec hf s
  · exact cpyForms_exec hf s

/-- Settles O25: every form is `Compare` of its register with its operand. -/
theorem comparesCompare : Obligations.ComparesCompare := by
  unfold Obligations.ComparesCompare
  intro d a s forms r h f hf
  obtain ⟨hbytes, hexec⟩ := compareForms_exec h hf
  exact ⟨hbytes, _, hexec, s.compareOperand_shows _ _ _, s.compareOperand_cyc r f,
    (s.compareOperand_covers _ _ _).leaves (.inr (s.compareOperand_a _ _ _)) (.of_readOperand (.refl _))⟩

/-! ## INC and DEC (42_arithmetic.md R138, R141) -/

/-- Adding to a byte of memory writes no register, and N and Z of the byte stored. -/
theorem State.bumpOperand_eq_loadInto (delta : Byte) (f : MemForm) (s : State) :
    s.bumpOperand delta f.operand f.cycles
      = (f.modified (f.value s + delta) s).loadInto [] (f.value s + delta)
          (f.cycles + f.modifyStall (f.value s + delta) s) := by
  unfold State.bumpOperand
  rw [State.modify_eq]
  rfl

theorem MemForm.modified_sameCpu (f : MemForm) (v : Byte) (s : State) : SameCpu s (f.modified v s) :=
  (SameCpu.touch _ s).trans (.memWrite _ v _)

theorem MemForm.modified_cyc (f : MemForm) (v : Byte) (s : State) : (f.modified v s).cyc = s.cyc := by
  simp [MemForm.modified]

/-- INC adds 1 and DEC 255. -/
theorem bumpForms_exec {d : Byte} {a : Addr} {forms : List MemForm} {delta : Nat}
    (h : (forms, delta) ∈ [(incForms d a, 1), (decForms d a, 255)]) {f : MemForm} (hf : f ∈ forms) (s : State) :
    f.Encoded ∧ exec f.instr s = .next (s.bumpOperand (BitVec.ofNat 8 delta) f.operand f.cycles) := by
  simp only [List.mem_cons, List.not_mem_nil, or_false, Prod.mk.injEq] at h
  rcases h with ⟨rfl, rfl⟩ | ⟨rfl, rfl⟩
  · exact incForms_exec hf s
  · exact decForms_exec hf s

/-- Settles O26: every form is one read-modify-write with N and Z of the byte stored. -/
theorem incAndDecCount : Obligations.IncAndDecCount := by
  unfold Obligations.IncAndDecCount
  intro d a s forms delta h f hf
  obtain ⟨hbytes, hexec⟩ := bumpForms_exec h hf s
  rw [State.bumpOperand_eq_loadInto] at hexec
  have hvalue : (f.value s + BitVec.ofNat 8 delta).toNat = ((f.value s).toNat + delta) % 256 := by
    rw [BitVec.toNat_add, BitVec.toNat_ofNat, Nat.add_mod_mod]
  obtain ⟨-, hnz, hcyc, hleaves⟩ := State.loadInto_spec [] (f.value s + BitVec.ofNat 8 delta)
    (f.cycles + f.modifyStall (f.value s + BitVec.ofNat 8 delta) s) (f.modified_sameCpu _ s)
  rw [f.modified_cyc, ← Nat.add_assoc] at hcyc
  exact ⟨hbytes, _, _, hexec, hvalue, hnz, hcyc, hleaves⟩

end Sys2Proof.Machine
end

section
/-! The logic and shift family, tier 2: AND, ORA, EOR and BIT, and the shifts and rotates of A and of memory
(43_logic_shift.md R151 to R159). -/

namespace Sys2Proof.Machine

/-! ## AND, ORA and EOR (43_logic_shift.md R151 to R153) -/

theorem State.logicOperand_eq_loadInto (op : Byte → Byte → Byte) (f : ReadForm) (s : State) :
    s.logicOperand op f.operand f.cycles
      = (f.operand.after s).loadInto [.a] (op s.a (f.operand.value s)) (f.cost s) := by
  simp [State.logicOperand_eq, State.loadInto, State.charge, ReadForm.cost]

/-- Each list of logic forms is the operation on bytes that is `op` on every bit. -/
theorem logicForms_exec {d : Byte} {a : Addr} {forms : List ReadForm} {op : Bool → Bool → Bool}
    (h : (forms, op) ∈ [(andForms d a, and), (oraForms d a, or), (eorForms d a, xor)]) :
    ∃ byteOp : Byte → Byte → Byte, (∀ v w i, (byteOp v w).getLsbD i = op (v.getLsbD i) (w.getLsbD i))
      ∧ ∀ f ∈ forms, ∀ s, f.Encoded ∧ exec f.instr s = .next (s.logicOperand byteOp f.operand f.cycles) := by
  simp only [List.mem_cons, List.not_mem_nil, or_false, Prod.mk.injEq] at h
  rcases h with ⟨rfl, rfl⟩ | ⟨rfl, rfl⟩ | ⟨rfl, rfl⟩
  · exact ⟨_, fun _ _ _ => BitVec.getLsbD_and, fun _ => andForms_exec⟩
  · exact ⟨_, fun _ _ _ => BitVec.getLsbD_or, fun _ => oraForms_exec⟩
  · exact ⟨_, fun _ _ _ => BitVec.getLsbD_xor, fun _ => eorForms_exec⟩

/-! ## BIT (43_logic_shift.md R154) -/

/-- Bit `i` of P after BIT. -/
theorem State.bitOperand_flag (o : Source) (base : Nat) (s : State) (i : Nat) :
    (s.bitOperand o base).p.getLsbD i = if i = 6 then (o.value s).getLsbD 6 else if i = 7 then (o.value s).getLsbD 7
      else if i = 1 then s.a &&& o.value s == 0#8 else s.p.getLsbD i := by
  simp [State.bitOperand_eq, putV, putN, putZ, getLsbD_putFlag]

theorem State.bitOperand_a (o : Source) (base : Nat) (s : State) : (s.bitOperand o base).a = s.a := by
  simp [State.bitOperand_eq]

theorem State.bitOperand_cyc (f : ReadForm) (s : State) : (s.bitOperand f.operand f.cycles).cyc = s.cyc + f.cost s := by
  simp [State.bitOperand_eq, ReadForm.cost]

/-- BIT leaves C alone too. -/
theorem State.bitOperand_covers_nvz (o : Source) (base : Nat) (s : State) :
    Footprint.Covers { flags := [7, 6, 1] } s (s.bitOperand o base) where
  __ := s.bitOperand_covers base o
  flags i hi := by
    simp only [List.mem_cons, List.not_mem_nil, or_false, not_or] at hi
    obtain ⟨h7, h6, h1⟩ := hi
    rw [State.bitOperand_flag, if_neg h6, if_neg h7, if_neg h1]

/-- Settles O27: AND, ORA and EOR are one write of A with N and Z; BIT puts three flags after reading its operand. -/
theorem logicAndBitTest : Obligations.LogicAndBitTest := by
  unfold Obligations.LogicAndBitTest
  intro d a forms op h s
  refine ⟨fun f hf => ?_, fun f hf => ?_⟩
  · obtain ⟨byteOp, hbits, hforms⟩ := logicForms_exec h
    obtain ⟨hbytes, hexec⟩ := hforms f hf s
    rw [State.logicOperand_eq_loadInto] at hexec
    obtain ⟨-, hnz, hcyc, hleaves⟩ :=
      State.loadInto_spec [.a] (byteOp s.a (f.operand.value s)) (f.cost s) (f.operand.after_sameCpu s)
    rw [Source.after_cyc] at hcyc
    exact ⟨hbytes, _, hexec, fun i _ => hbits _ _ i, hnz, hcyc, hleaves⟩
  · obtain ⟨hbytes, hexec⟩ := bitForms_exec hf s
    have hflag := s.bitOperand_flag f.operand f.cycles
    exact ⟨hbytes, _, hexec, by rw [flagZ, hflag 1]; exact beq_iff_eq, hflag 7, hflag 6, s.bitOperand_cyc f,
      (s.bitOperand_covers_nvz _ _).leaves (.inr (s.bitOperand_a _ _)) (.of_readOperand (.refl _))⟩

/-! ## Shifts and rotates (43_logic_shift.md R155 to R159) -/

/-- What a write of registers with C, N and Z shows, and its frame, from a state `u` with the CPU's registers of `s`. -/
theorem State.setC_loadInto_spec (regs : List CpuReg) (c : Bool) (v : Byte) (n : Nat) {s u : State} (h : SameCpu s u) :
    (∀ r ∈ regs, ((u.setC c).loadInto regs v n).reg r = v) ∧ flagC ((u.setC c).loadInto regs v n).p = c
      ∧ ShowsNZ v ((u.setC c).loadInto regs v n) ∧ ((u.setC c).loadInto regs v n).cyc = u.cyc + n
      ∧ Leaves regs [7, 1, 0] s u ((u.setC c).loadInto regs v n) := by
  obtain ⟨hregs, hnz, hcyc, hkept, -, -, -⟩ := State.loadInto_spec regs v n (.refl (u.setC c))
  refine ⟨hregs, flagC_putNZ_putC v c u.p, hnz, hcyc, fun r hr => ?_, fun i hi => ?_, h.pc, .refl u⟩
  · have hreg : (u.setC c).reg r = u.reg r := by cases r <;> rfl
    rw [hkept r hr, hreg, h.reg r]
  · exact (putNZ_putC_other hi).trans (congrArg (·.getLsbD i) h.p)

/-- A shift of A writes A with C, N and Z. -/
theorem State.shiftAcc_eq_loadInto (sh : Shift) (base : Nat) (s : State) :
    s.shiftAcc sh base = (s.setC (sh s.a (flagC s.p)).2).loadInto [.a] (sh s.a (flagC s.p)).1 base := rfl

/-- A shift in memory stores the shifted byte back and writes no register, with C, N and Z. -/
theorem State.shiftOperand_eq_loadInto {sh : Shift} {f : MemForm} {s : State} {r : Byte × Bool}
    (h : sh (f.value s) (flagC s.p) = r) :
    s.shiftOperand sh f.operand f.cycles
      = ((f.modified r.1 s).setC r.2).loadInto [] r.1 (f.cycles + f.modifyStall r.1 s) := by
  subst h
  simp only [State.shiftOperand, State.modify_eq]
  rfl

theorem accumulatorShifts_exec {op : Byte} {i : Instr} {f : Shift} (h : (op, i, f) ∈ accumulatorShifts) (s : State) :
    encode i = [op] ∧ exec i s = .next (s.shiftAcc f 2) := by
  simp only [accumulatorShifts, List.mem_cons, List.not_mem_nil, or_false, Prod.mk.injEq] at h
  rcases h with ⟨rfl, rfl, rfl⟩ | ⟨rfl, rfl, rfl⟩ | ⟨rfl, rfl, rfl⟩ | ⟨rfl, rfl, rfl⟩ <;> exact ⟨rfl, rfl⟩

theorem memoryShifts_exec {d : Byte} {a : Addr} {forms : List MemForm} {sh : Shift}
    (h : (forms, sh) ∈ memoryShifts d a) {f : MemForm} (hf : f ∈ forms) (s : State) :
    f.Encoded ∧ exec f.instr s = .next (s.shiftOperand sh f.operand f.cycles) := by
  simp only [memoryShifts, List.mem_cons, List.not_mem_nil, or_false, Prod.mk.injEq] at h
  rcases h with ⟨rfl, rfl⟩ | ⟨rfl, rfl⟩ | ⟨rfl, rfl⟩ | ⟨rfl, rfl⟩
  · exact aslForms_exec hf s
  · exact lsrForms_exec hf s
  · exact rolForms_exec hf s
  · exact rorForms_exec hf s

/-- Settles O28: the shift functions in integers, then each instruction as its function on A or on a byte of memory. -/
theorem shiftsShift : Obligations.ShiftsShift := by
  unfold Obligations.ShiftsShift
  refine ⟨shift_specs, fun s op i f h => ?_, fun d a s forms sh h f hf => ?_⟩
  · obtain ⟨hbytes, hexec⟩ := accumulatorShifts_exec h s
    rw [State.shiftAcc_eq_loadInto] at hexec
    obtain ⟨-, hspec⟩ := State.setC_loadInto_spec [.a] (f s.a (flagC s.p)).2 (f s.a (flagC s.p)).1 2 (.refl s)
    exact ⟨hbytes, _, hexec, rfl, hspec⟩
  · obtain ⟨hbytes, hexec⟩ := memoryShifts_exec h hf s
    generalize hr : sh (f.value s) (flagC s.p) = r
    rw [State.shiftOperand_eq_loadInto hr] at hexec
    obtain ⟨-, hc, hnz, hcyc, hleaves⟩ :=
      State.setC_loadInto_spec [] r.2 r.1 (f.cycles + f.modifyStall r.1 s) (f.modified_sameCpu r.1 s)
    rw [f.modified_cyc, ← Nat.add_assoc] at hcyc
    exact ⟨hbytes, r, _, hexec, rfl, hc, hnz, hcyc, hleaves⟩

end Sys2Proof.Machine
end

section
/-! The control-transfer family, tier 2: subroutine call and return, and the two jumps (44_control_transfer.md R179 to R182;
30_encoding.md R80). -/

namespace Sys2Proof.Machine

theorem State.peek_charge (n : Nat) (b : Addr) (s : State) : (s.charge n).peek b = s.peek b := (SameOutside.refl s).peek b

/-- A machine that has the CPU of `s`, PC and the cycle count apart. -/
theorem SameCpu.leaves_but_pc {s u : State} (h : SameCpu s u) (n : Nat) :
    Leaves [] [] s u { u.charge n with pc := s.pc } :=
  .intro (.inr h.a) (.inr h.x) (.inr h.y) (.inr h.sp) (fun i _ => congrArg (·.getLsbD i) h.p) rfl (.refl u)

/-! ## A pair of pushes and a pair of pulls (10_state.md R11) -/

/-- The slots of the stack are distinct bytes of RAM. -/
theorem writeChanges_stackAddress {p q : Byte} (h : p ≠ q) : writeChanges (stackAddress p) (stackAddress q) = false := by
  unfold writeChanges
  rw [stackAddress_region, stackAddress_region]
  have hslots : 256 + q.toNat ≠ 256 + p.toNat := by bv_omega
  simpa using hslots

theorem State.push_sp (v : Byte) (s : State) : (s.push v).sp = s.sp - 1#8 := rfl

theorem State.pushAddr_sp (v : Addr) (s : State) : (s.pushAddr v).sp = s.sp - 2#8 := by
  show s.sp - 1#8 - 1#8 = s.sp - 2#8
  bv_omega

theorem State.pushAddr_cyc (v : Addr) (s : State) : (s.pushAddr v).cyc = s.cyc := by rw [State.pushAddr_eq]

theorem State.peek_pushAddr_high (v : Addr) (s : State) : (s.pushAddr v).peek (stackAddress s.sp) = highByte v := by
  have hslots : writeChanges (stackAddress (s.push (highByte v)).sp) (stackAddress s.sp) = false :=
    writeChanges_stackAddress (by rw [State.push_sp]; bv_omega)
  exact (State.peek_push_other _ _ hslots).trans (State.peek_push_same _ s)

theorem State.peek_pushAddr_low (v : Addr) (s : State) : (s.pushAddr v).peek (stackAddress (s.sp - 1#8)) = lowByte v :=
  State.peek_push_same (lowByte v) (s.push (highByte v))

theorem State.peek_pushAddr_other {b : Addr} (v : Addr) {s : State} (h : OffStack 2 s b) : (s.pushAddr v).peek b = s.peek b := by
  have hhigh : writeChanges (stackAddress s.sp) b = false := by simpa using h 0 (by decide)
  have hlow : writeChanges (stackAddress (s.push (highByte v)).sp) b = false := h 1 (by decide)
  exact (State.peek_push_other _ _ hlow).trans (State.peek_push_other _ s hhigh)

/-- A pair of pulls returns what the two slots read and changes nothing but S. -/
theorem State.pullAddr_eq_peek (s : State) :
    s.pullAddr = (joinBytes (s.peek (stackAddress (s.sp + 2#8))) (s.peek (stackAddress (s.sp + 1#8))),
      { s with sp := s.sp + 2#8 }) := by
  have hsp : s.sp + 1#8 + 1#8 = s.sp + 2#8 := BitVec.add_assoc s.sp 1#8 1#8
  rw [State.pullAddr_eq, State.peek_stack, State.peek_stack, hsp]

/-! ## JSR and RTS (44_control_transfer.md R180, R182) -/

theorem exec_jsr (a : Addr) (s : State) :
    exec (.jsr a) s = .next { (s.charge 6).pushAddr (s.pc - 1#16) with pc := a } := rfl

theorem exec_rts (s : State) :
    exec .rts s = .next { s.charge 6 with
      sp := s.sp + 2#8
      pc := joinBytes (s.peek (stackAddress (s.sp + 2#8))) (s.peek (stackAddress (s.sp + 1#8))) + 1#16 } := by
  show execRts s = _
  unfold execRts
  rw [State.pullAddr_eq_peek, State.peek_charge, State.peek_charge]
  rfl

/-- Every read after a JSR is a read after its two pushes. -/
theorem peek_of_exec_jsr {a : Addr} {s u : State} (h : exec (.jsr a) s = .next u) (b : Addr) :
    u.peek b = ((s.charge 6).pushAddr (s.pc - 1#16)).peek b := by
  cases (exec_jsr a s).symm.trans h
  exact (SameOutside.refl ((s.charge 6).pushAddr (s.pc - 1#16))).peek b

theorem sp_of_exec_jsr {a : Addr} {s u : State} (h : exec (.jsr a) s = .next u) : u.sp = s.sp - 2#8 := by
  cases (exec_jsr a s).symm.trans h
  exact State.pushAddr_sp _ (s.charge 6)

/-- The return address stands on the stack, and every byte off the two slots is as before. -/
theorem stack_of_exec_jsr {a : Addr} {s u : State} (h : exec (.jsr a) s = .next u) :
    u.peek (stackAddress s.sp) = highByte (s.pc - 1#16) ∧ u.peek (stackAddress (s.sp - 1#8)) = lowByte (s.pc - 1#16)
      ∧ ∀ b, OffStack 2 s b → u.peek b = s.peek b := by
  have hpeek := peek_of_exec_jsr h
  refine ⟨(hpeek _).trans (State.peek_pushAddr_high _ (s.charge 6)),
    (hpeek _).trans (State.peek_pushAddr_low _ (s.charge 6)), fun b hb => ?_⟩
  have hother : ((s.charge 6).pushAddr (s.pc - 1#16)).peek b = (s.charge 6).peek b := State.peek_pushAddr_other _ hb
  exact (hpeek b).trans (hother.trans (s.peek_charge 6 b))

/-- JSR changes S, PC, the cycle count and RAM. -/
theorem exec_jsr_leaves {a : Addr} {s u : State} (h : exec (.jsr a) s = .next u) :
    Leaves [.sp] [] s { s with ram := u.ram } { u with pc := s.pc } := by
  cases (exec_jsr a s).symm.trans h
  rw [State.pushAddr_eq]
  exact .intro (.inr rfl) (.inr rfl) (.inr rfl) (.inl List.mem_cons_self) (fun _ _ => rfl) rfl (.refl _)

/-- Settles O15: JSR is a pair of pushes and RTS a pair of pulls, PC aside. -/
theorem subroutineCallAndReturn : Obligations.SubroutineCallAndReturn := by
  unfold Obligations.SubroutineCallAndReturn
  intro s a
  refine ⟨rfl, rfl, ?_, ?_⟩
  · obtain ⟨hhigh, hlow, hother⟩ := stack_of_exec_jsr (exec_jsr a s)
    exact ⟨_, exec_jsr a s, hhigh, hlow, sp_of_exec_jsr (exec_jsr a s), rfl, State.pushAddr_cyc _ (s.charge 6),
      exec_jsr_leaves (exec_jsr a s), hother⟩
  · exact ⟨_, exec_rts s, rfl, rfl, rfl,
      .intro (.inr rfl) (.inr rfl) (.inr rfl) (.inl List.mem_cons_self) (fun _ _ => rfl) rfl (.refl s)⟩

/-- Settles O16: RTS pulls the two bytes JSR pushed, whose word is one less than the PC to return to. -/
theorem callThenReturn : Obligations.CallThenReturn := by
  unfold Obligations.CallThenReturn
  intro s a u v hcall hsp hhigh hlow
  obtain ⟨hpushedHigh, hpushedLow, -⟩ := stack_of_exec_jsr hcall
  have hvsp : v.sp = s.sp - 2#8 := hsp.trans (sp_of_exec_jsr hcall)
  have hslotLow : v.sp + 1#8 = s.sp - 1#8 := by bv_omega
  have hslotHigh : v.sp + 2#8 = s.sp := by bv_omega
  refine ⟨_, exec_rts v, ?_, hslotHigh⟩
  show joinBytes (v.peek (stackAddress (v.sp + 2#8))) (v.peek (stackAddress (v.sp + 1#8))) + 1#16 = s.pc
  rw [hslotHigh, hslotLow, hhigh, hlow, hpushedHigh, hpushedLow, joinBytes_high_low, BitVec.sub_add_cancel]

/-! ## Jumps (44_control_transfer.md R179, R181; 30_encoding.md R80) -/

/-- The address after `a` in the page of `a`, where JMP indirect reads the pointer's high byte. -/
def nextInPage (a : Addr) : Addr := joinBytes (highByte a) (lowByte a + 1#8)

theorem nextInPage_toNat (a : Addr) : (nextInPage a).toNat = a.toNat / 256 * 256 + (a.toNat + 1) % 256 := by
  have hlow : (1#8).toNat = 1 := rfl
  rw [nextInPage, joinBytes_toNat, highByte_toNat, BitVec.toNat_add, lowByte_toNat]
  omega

/-- JMP indirect reads the pointer's low byte, then its high byte, each a bus access. -/
theorem exec_jmpInd (a : Addr) (s : State) :
    exec (.jmpInd a) s = .next { ((s.touch a).touch (nextInPage a)).charge 5 with
      pc := joinBytes ((s.touch a).peek (nextInPage a)) (s.peek a) } := by
  show execJmpInd a s = _
  unfold execJmpInd State.readIndirect State.memRead nextInPage
  dsimp only
  rw [State.touch_charge, State.touch_charge, State.peek_charge, State.peek_charge]

/-- Settles O32: JMP absolute writes PC alone; JMP indirect writes PC after its two reads. -/
theorem jumpsJump : Obligations.JumpsJump := by
  unfold Obligations.JumpsJump
  intro s a
  refine ⟨rfl, rfl, ⟨_, rfl, rfl, rfl, (SameCpu.refl s).leaves_but_pc 3⟩, ?_⟩
  have hreads : SameCpu s ((s.touch a).touch (nextInPage a)) := (SameCpu.touch a s).trans (.touch _ _)
  refine ⟨nextInPage a, _, exec_jmpInd a s, nextInPage_toNat a, joinBytes_toNat _ _, ?_, hreads.leaves_but_pc 5⟩
  simp

end Sys2Proof.Machine
end

section
/-! The flag and system family, tier 2: BRK and RTI as an entry into an exception and a return from one, the flag
instructions, and the no-operations (45_flags_system.md R191 to R205; 46_undocumented.md R211, R212, R221). -/

namespace Sys2Proof.Machine

/-! ## Taking an exception (45_flags_system.md R204; 60_exceptions.md R238) -/

/-- Off the slots of `n` pushes is off those of fewer. -/
theorem OffStack.mono {m n : Nat} {s : State} {b : Addr} (h : OffStack n s b) (hmn : m ≤ n) : OffStack m s b :=
  fun k hk => h k (Nat.lt_of_lt_of_le hk hmn)

/-- What is read after an entry's three pushes: the return address and the copy of P in the three slots, and every byte off
them as before. -/
theorem State.peek_pushAddr_push (ret : Addr) (pushed : Byte) (s : State) :
    ((s.pushAddr ret).push pushed).peek (stackAddress s.sp) = highByte ret
      ∧ ((s.pushAddr ret).push pushed).peek (stackAddress (s.sp - 1#8)) = lowByte ret
      ∧ ((s.pushAddr ret).push pushed).peek (stackAddress (s.sp - 2#8)) = pushed
      ∧ ∀ b, OffStack 3 s b → ((s.pushAddr ret).push pushed).peek b = s.peek b := by
  have hsp := State.pushAddr_sp ret s
  have hkept : ∀ b, writeChanges (stackAddress (s.sp - 2#8)) b = false →
      ((s.pushAddr ret).push pushed).peek b = (s.pushAddr ret).peek b :=
    fun b hb => State.peek_push_other pushed _ (by rwa [hsp])
  refine ⟨?_, ?_, ?_, fun b hb => ?_⟩
  · exact (hkept _ (writeChanges_stackAddress (by bv_omega))).trans (State.peek_pushAddr_high ret s)
  · exact (hkept _ (writeChanges_stackAddress (by bv_omega))).trans (State.peek_pushAddr_low ret s)
  · rw [← hsp]
    exact State.peek_push_same pushed _
  · exact (hkept b (hb 2 (by decide))).trans (State.peek_pushAddr_other ret (hb.mono (by decide)))

/-- A read of the cartridge's addresses sees the cartridge alone (20_memory.md R51). -/
theorem State.peek_of_cartridge (s : State) {a : Addr} (h : 0x4020 ≤ a.toNat) : s.peek a = s.cart.readPrg a := by
  unfold State.peek
  rw [region_eq_cartridge.mpr h]

section Entering
variable {vector : Addr} (h : 0x8000 ≤ vector.toNat) (hv : vector.toNat ≠ 0xFFFF) (ret : Addr) (pushed : Byte) (s : State)
include h hv

/-- An entry is its three pushes with I set and PC loaded from the vector as it reads before them. -/
theorem State.enter_eq_pushes :
    s.enter vector ret pushed = { (s.pushAddr ret).push pushed with
      p := putI true s.p
      pc := joinBytes (s.peek (vector + 1#16)) (s.peek vector) } := by
  have hnext : 0x4020 ≤ (vector + 1#16).toNat := by bv_omega
  rw [State.enter_eq h hv, s.peek_of_cartridge hnext, s.peek_of_cartridge (by omega), State.push_eq, State.pushAddr_eq]

/-- Taking an exception, whatever raised it. -/
theorem State.enter_entersThrough : EntersThrough vector ret pushed s (s.enter vector ret pushed) := by
  obtain ⟨hhigh, hlow, hpushed, hother⟩ := State.peek_pushAddr_push ret pushed s
  rw [State.enter_eq_pushes h hv]
  refine ⟨hhigh, hlow, hpushed, ?_, ?_, rfl, ?_, hother⟩
  · show (s.pushAddr ret).sp - 1#8 = s.sp - 3#8
    rw [State.pushAddr_sp]
    bv_omega
  · show (putFlag 2 true s.p).getLsbD 2 = true
    simp [getLsbD_putFlag]
  · rw [State.push_eq, State.pushAddr_eq]
    exact .intro (.inr rfl) (.inr rfl) (.inr rfl) (.inl List.mem_cons_self)
      (fun i hi => putFlag_kept List.mem_cons_self hi) rfl (.refl _)

theorem State.enter_cyc : (s.enter vector ret pushed).cyc = s.cyc := by rw [State.enter_eq h hv]

end Entering

theorem exec_brk (s : State) :
    exec .brk s = .next ((s.charge 7).enter 0xFFFE#16 (s.pc + 1#16) (s.p ||| 0x30#8)) := rfl

/-- Settles O12: BRK is an entry into an exception through the vector of Irq, with its cycles counted. -/
theorem brkTraps : Obligations.BrkTraps := by
  unfold Obligations.BrkTraps
  intro s
  refine ⟨rfl, _, exec_brk s, ?_, ?_⟩
  · rw [State.enter_cyc (by decide) (by decide)]
    rfl
  · exact State.enter_entersThrough (by decide) (by decide) _ _ (s.charge 7)

/-! ## Returning from an exception (45_flags_system.md R205) -/

/-- A return is three pulls: P, then PC low, then PC high. -/
theorem State.leave_eq_peek (s : State) :
    s.leave = { s with
      p := pulledFlags (s.peek (stackAddress (s.sp + 1#8)))
      sp := s.sp + 3#8
      pc := joinBytes (s.peek (stackAddress (s.sp + 3#8))) (s.peek (stackAddress (s.sp + 2#8))) } := by
  have htwo : s.sp + 1#8 + 1#8 = s.sp + 2#8 := BitVec.add_assoc s.sp 1#8 1#8
  have hthree : s.sp + 2#8 + 1#8 = s.sp + 3#8 := BitVec.add_assoc s.sp 2#8 1#8
  rw [State.leave_eq, htwo, hthree, State.peek_stack, State.peek_stack, State.peek_stack]

theorem exec_rti (s : State) : exec .rti s = .next (s.charge 6).leave := rfl

/-- Settles O13: RTI is a return from an exception, with its cycles counted. -/
theorem rtiReturns : Obligations.RtiReturns := by
  unfold Obligations.RtiReturns
  intro s
  obtain ⟨h5, h4⟩ := pulledFlags_ok (s.peek (stackAddress (s.sp + 1#8)))
  have hexec := exec_rti s
  rw [State.leave_eq_peek] at hexec
  exact ⟨rfl, _, hexec, fun _ => pulledFlags_other _, h4, h5, rfl, rfl, rfl, rfl, rfl, rfl, .refl s⟩

/-! ## The flag instructions (45_flags_system.md R191 to R197) -/

/-- Each flag instruction puts the value of its rule to the flag of its rule. -/
theorem flagForms_exec {op : Byte} {i : Instr} {k : Nat} {v : Bool} (h : (op, i, k, v) ∈ flagForms) (s : State) :
    encode i = [op] ∧ k < 8 ∧ exec i s = .next { s.charge 2 with p := putFlag k v s.p } := by
  simp only [flagForms, List.mem_cons, List.not_mem_nil, or_false, Prod.mk.injEq] at h
  rcases h with ⟨rfl, rfl, rfl, rfl⟩ | ⟨rfl, rfl, rfl, rfl⟩ | ⟨rfl, rfl, rfl, rfl⟩ | ⟨rfl, rfl, rfl, rfl⟩
    | ⟨rfl, rfl, rfl, rfl⟩ | ⟨rfl, rfl, rfl, rfl⟩ | ⟨rfl, rfl, rfl, rfl⟩ <;> exact ⟨rfl, by decide, rfl⟩

/-- Settles O29: putting a flag changes that bit of P alone. -/
theorem flagInstructionsWriteOneFlag : Obligations.FlagInstructionsWriteOneFlag := by
  unfold Obligations.FlagInstructionsWriteOneFlag
  intro s op i k v h
  obtain ⟨hbytes, hk, hexec⟩ := flagForms_exec h s
  refine ⟨hbytes, _, hexec, ?_, rfl, ?_⟩
  · exact (getLsbD_putFlag k k v s.p).trans (if_pos ⟨rfl, hk⟩)
  · exact .intro (.inr rfl) (.inr rfl) (.inr rfl) (.inr rfl) (fun j hj => putFlag_kept List.mem_cons_self hj) rfl (.refl s)

/-! ## The no-operations (45_flags_system.md R198; 46_undocumented.md R211, R212, R221) -/

/-- The no-operations without a memory operand count 2 cycles. -/
theorem idleForms_exec {d op : Byte} {i : Instr} (h : (op, i) ∈ idleForms d) (s : State) :
    (encode i).head? = some op ∧ exec i s = .next (s.charge 2) := by
  simp only [idleForms, List.mem_cons, List.not_mem_nil, or_false, Prod.mk.injEq] at h
  rcases h with ⟨rfl, rfl⟩ | ⟨rfl, rfl⟩ | ⟨rfl, rfl⟩ | ⟨rfl, rfl⟩ | ⟨rfl, rfl⟩ | ⟨rfl, rfl⟩ | ⟨rfl, rfl⟩ | ⟨rfl, rfl⟩
    | ⟨rfl, rfl⟩ | ⟨rfl, rfl⟩ | ⟨rfl, rfl⟩ | ⟨rfl, rfl⟩ <;> exact ⟨rfl, rfl⟩

/-- The memory forms of DOP and TOP read their operand and count the cycles. -/
theorem discardForms_exec {d : Byte} {a : Addr} {f : ReadForm} (h : f ∈ dopForms d a ++ topForms d a) (s : State) :
    f.Encoded ∧ exec f.instr s = .next ((f.operand.after s).charge (f.cost s)) := by
  obtain ⟨hbytes, o, ho, hexec⟩ := (List.mem_append.mp h).elim (dopForms_exec · s) (topForms_exec · s)
  rw [State.readAndDiscard_eq, ← ho] at hexec
  exact ⟨hbytes, hexec⟩

/-- Settles O30: a no-operation is a charge of cycles, after one read for the memory forms. -/
theorem noOperationsDoNothing : Obligations.NoOperationsDoNothing := by
  unfold Obligations.NoOperationsDoNothing
  intro s d a
  refine ⟨fun op i h => ?_, fun f hf => ?_⟩
  · obtain ⟨hbytes, hexec⟩ := idleForms_exec h s
    exact ⟨hbytes, _, hexec, rfl, (SameCpu.refl s).leaves 2⟩
  · obtain ⟨hbytes, hexec⟩ := discardForms_exec hf s
    refine ⟨hbytes, _, hexec, ?_, (f.operand.after_sameCpu s).leaves _⟩
    rw [State.charge_cyc, Source.after_cyc]

end Sys2Proof.Machine
end

section
/-! The undocumented family, tier 2: the read-modify-write instructions that then combine, add, subtract or compare A with
the byte they stored (46_undocumented.md R215 to R220). -/

namespace Sys2Proof.Machine

/-! ## SLO, RLA and SRE (46_undocumented.md R215 to R217) -/

/-- Shifting a byte of memory and combining it with A stores the shifted byte back and writes A, with C, N and Z. -/
theorem State.shiftThenLogic_eq_loadInto {sh : Shift} {f : MemForm} {s : State} {r : Byte × Bool}
    (op : Byte → Byte → Byte) (h : sh (f.value s) (flagC s.p) = r) :
    s.shiftThenLogic sh op f.operand f.cycles
      = ((f.modified r.1 s).setC r.2).loadInto [.a] (op s.a r.1) (f.cycles + f.modifyStall r.1 s) := by
  subst h
  simp only [State.shiftThenLogic, State.modify_eq, MemForm.afterModify_a]
  rfl

/-- Each list of forms is the shift and the operation on A of its rule. -/
theorem shiftThenLogicForms_exec {d : Byte} {a : Addr} {forms : List MemForm} {sh : Shift} {op : Byte → Byte → Byte}
    (h : (forms, sh, op) ∈ [(sloForms d a, shiftAsl, (· ||| ·)), (rlaForms d a, shiftRol, (· &&& ·)),
      (sreForms d a, shiftLsr, (· ^^^ ·))])
    {f : MemForm} (hf : f ∈ forms) (s : State) :
    f.Encoded ∧ exec f.instr s = .next (s.shiftThenLogic sh op f.operand f.cycles) := by
  simp only [List.mem_cons, List.not_mem_nil, or_false, Prod.mk.injEq] at h
  rcases h with ⟨rfl, rfl, rfl⟩ | ⟨rfl, rfl, rfl⟩ | ⟨rfl, rfl, rfl⟩
  · exact sloForms_exec hf s
  · exact rlaForms_exec hf s
  · exact sreForms_exec hf s

/-- Settles O33: every form is one read-modify-write, then one write of A with C, N and Z. -/
theorem shiftThenLogicInstructions : Obligations.ShiftThenLogicInstructions := by
  unfold Obligations.ShiftThenLogicInstructions
  intro d a s forms sh op h f hf
  obtain ⟨hbytes, hexec⟩ := shiftThenLogicForms_exec h hf s
  generalize hr : sh (f.value s) (flagC s.p) = r
  rw [State.shiftThenLogic_eq_loadInto op hr] at hexec
  obtain ⟨ha, hc, hnz, hcyc, hleaves⟩ := State.setC_loadInto_spec [.a] r.2 (op s.a r.1)
    (f.cycles + f.modifyStall r.1 s) (f.modified_sameCpu r.1 s)
  rw [f.modified_cyc, ← Nat.add_assoc] at hcyc
  exact ⟨hbytes, r, _, hexec, rfl, ha .a List.mem_cons_self, hc, hnz, hcyc, hleaves⟩

/-! ## RRA, ISC and DCP (46_undocumented.md R218 to R220) -/

section AfterModify

variable (f : MemForm) (s : State)

theorem State.rotateThenAdc_eq {r : Byte × Bool} (h : shiftRor (f.value s) (flagC s.p) = r) :
    s.rotateThenAdc f.operand f.cycles = ((f.afterModify r.1 s).setC r.2).adc r.1 := by
  subst h
  simp only [State.rotateThenAdc, State.modify_eq]

theorem State.incrementThenSbc_eq :
    s.incrementThenSbc f.operand f.cycles = (f.afterModify (f.value s + 1#8) s).sbc (f.value s + 1#8) := by
  simp only [State.incrementThenSbc, State.modify_eq]

theorem State.decrementThenCompare_eq :
    s.decrementThenCompare f.operand f.cycles
      = (f.afterModify (f.value s - 1#8) s).compare s.a (f.value s - 1#8) := by
  simp only [State.decrementThenCompare, State.modify_eq, MemForm.afterModify_a]

/-- RRA adds with the bit rotated out: the carry put before the addition is the carry-in of the addition (R218). -/
theorem State.rotateThenAdc_spec {r : Byte × Bool} (h : shiftRor (f.value s) (flagC s.p) = r) :
    s.Added r.2 r.1 (s.rotateThenAdc f.operand f.cycles)
      ∧ (s.rotateThenAdc f.operand f.cycles).cyc = s.cyc + f.cycles + f.modifyStall r.1 s
      ∧ Leaves [.a] [7, 6, 1, 0] s (f.modified r.1 s) (s.rotateThenAdc f.operand f.cycles) := by
  have hcovers := s.rotateThenAdc_covers f.cycles f.operand
  rw [State.rotateThenAdc_eq f s h] at hcovers ⊢
  have hflags : ((f.afterModify r.1 s).setC r.2).p = putC r.2 s.p := congrArg (putC r.2) (f.afterModify_p r.1 s)
  obtain ⟨hadded, -⟩ := State.adc_added (u := (f.afterModify r.1 s).setC r.2) r.1 (f.afterModify_a r.1 s)
    (f.afterModify_params r.1 s) hflags
  exact ⟨hadded, f.afterModify_cyc r.1 s, hcovers.leaves (.inl List.mem_cons_self) (f.afterModify_outside r.1 (.refl _))⟩

/-- ISC leaves C alone before the subtraction, so the borrow is that of the old C (R220). -/
theorem State.incrementThenSbc_spec {r : Byte} (h : f.value s + 1#8 = r) :
    s.Subtracted (flagC s.p) r (s.incrementThenSbc f.operand f.cycles)
      ∧ (s.incrementThenSbc f.operand f.cycles).cyc = s.cyc + f.cycles + f.modifyStall r s
      ∧ Leaves [.a] [7, 6, 1, 0] s (f.modified r s) (s.incrementThenSbc f.operand f.cycles) := by
  have hcovers := s.incrementThenSbc_covers f.cycles f.operand
  rw [State.incrementThenSbc_eq, h] at hcovers ⊢
  obtain ⟨hsubtracted, -⟩ := State.sbc_subtracted r (f.afterModify_a r s) (f.afterModify_params r s) (f.afterModify_p r s)
  exact ⟨hsubtracted, f.afterModify_cyc r s, hcovers.leaves (.inl List.mem_cons_self) (f.afterModify_outside r (.refl _))⟩

/-- DCP compares A, which stays, with the byte it stored (R219). -/
theorem State.decrementThenCompare_spec {r : Byte} (h : f.value s - 1#8 = r) :
    ShowsCompare s.a r (s.decrementThenCompare f.operand f.cycles)
      ∧ (s.decrementThenCompare f.operand f.cycles).cyc = s.cyc + f.cycles + f.modifyStall r s
      ∧ Leaves [] [7, 1, 0] s (f.modified r s) (s.decrementThenCompare f.operand f.cycles) := by
  have hcovers := s.decrementThenCompare_covers f.cycles f.operand
  rw [State.decrementThenCompare_eq, h] at hcovers ⊢
  exact ⟨compare_spec s.a r _, f.afterModify_cyc r s,
    hcovers.leaves (.inr (f.afterModify_a r s)) (f.afterModify_outside r (.refl _))⟩

end AfterModify

/-- Settles O34: every form is one read-modify-write, then `Adc`, `Sbc` or `Compare` of the byte it stored. -/
theorem rotateOrCountThenArithmetic : Obligations.RotateOrCountThenArithmetic := by
  unfold Obligations.RotateOrCountThenArithmetic
  intro d a s
  refine ⟨fun f hf => ?_, fun f hf => ?_, fun f hf => ?_⟩
  · obtain ⟨hbytes, hexec⟩ := rraForms_exec hf s
    exact ⟨hbytes, _, _, hexec, rfl, s.rotateThenAdc_spec f rfl⟩
  · obtain ⟨hbytes, hexec⟩ := iscForms_exec hf s
    exact ⟨hbytes, _, _, hexec, BitVec.toNat_add _ _, s.incrementThenSbc_spec f rfl⟩
  · obtain ⟨hbytes, hexec⟩ := dcpForms_exec hf s
    have hvalue : (f.value s - 1#8).toNat = ((f.value s).toNat + 255) % 256 := by
      rw [sub_one_eq_ofNat, BitVec.toNat_ofNat]
    exact ⟨hbytes, _, _, hexec, hvalue, s.decrementThenCompare_spec f rfl⟩

end Sys2Proof.Machine
end

section
/-! The exception family, tiers 1 and 2: the pending slot, the services of Nmi, Irq and Reset, a masked Irq, and the return
from an exception (60_exceptions.md R233 to R242; 70_reset_and_hazards.md R390, R391). -/

namespace Sys2Proof.Machine

/-! ## The pending slot (60_exceptions.md R233) -/

theorem mergeRequest_reset (slot : Option Interrupt) : mergeRequest .reset slot = some .reset := by
  rcases slot with - | - | - | - <;> rfl

theorem mergeRequest_nmi (slot : Option Interrupt) :
    mergeRequest .nmi slot = if slot = some .reset then slot else some .nmi := by
  rcases slot with - | - | - | - <;> rfl

theorem mergeRequest_irq (slot : Option Interrupt) :
    mergeRequest .irq slot = if slot = none then some .irq else slot := by
  rcases slot with - | - | - | - <;> rfl

/-- Settles O6: the merge rule is the three cases, slot by slot. -/
theorem requestsMergeByPriority : Obligations.RequestsMergeByPriority := by
  unfold Obligations.RequestsMergeByPriority
  intro s
  unfold State.request
  rw [mergeRequest_reset, mergeRequest_nmi, mergeRequest_irq]
  refine ⟨rfl, ?_, ?_⟩ <;> split <;> rfl

/-! ## Services (60_exceptions.md R235, R238; 70_reset_and_hazards.md R390) -/

theorem step_of_executeOp {s t : State} (h : s.executeOp = .next t) : step s = .next t.advanceDevices := by
  unfold step State.round
  rw [h]

/-- A due service takes the whole CPU step; the devices then advance by the cycles it counts. -/
theorem step_of_due {s : State} {k : Interrupt} {n : Nat} (h : s.due = some k)
    (hn : (State.service k { s with cyc := 0 }).cyc = n) :
    step s = .next (State.ppuStep (3 * n) (State.apuStep n (State.service k { s with cyc := 0 }))) := by
  rw [step_of_executeOp (State.executeOp_of_due h), State.advanceDevices, hn]

/-- Only a masked Irq keeps a pending request from being due. -/
theorem State.due_of_pending {s : State} {k : Interrupt} (h : s.pending = some k) (hk : k = .irq → flagI s.p = false) :
    s.due = some k := by
  unfold State.due
  rw [h]
  cases k with
  | irq => simp [hk rfl]
  | nmi | reset => rfl

theorem State.serviceInterrupt_entersThrough {vector : Addr} (h : 0x8000 ≤ vector.toNat) (hv : vector.toNat ≠ 0xFFFF)
    (s : State) : EntersThrough vector s.pc (pushedByService s.p) s (s.serviceInterrupt vector) :=
  State.enter_entersThrough h hv s.pc (pushedByService s.p) s

/-- Settles O7: a due Nmi or Irq is an entry through its vector with the slot cleared first. -/
theorem nmiAndIrqAreServiced : Obligations.NmiAndIrqAreServiced := by
  unfold Obligations.NmiAndIrqAreServiced
  rintro s vector (⟨hpending, rfl⟩ | ⟨hpending, hmask, rfl⟩)
  · exact ⟨_, step_of_due (n := 7) (State.due_of_pending hpending nofun) rfl, rfl,
      State.serviceInterrupt_entersThrough (by decide) (by decide) { s with cyc := 0, pending := none }⟩
  · exact ⟨_, step_of_due (n := 7) (State.due_of_pending hpending fun _ => hmask) rfl, rfl,
      State.serviceInterrupt_entersThrough (by decide) (by decide) { s with cyc := 0, pending := none }⟩

theorem State.serviceReset_eq (s : State) :
    s.serviceReset = { s with
      a := s.params.resetA, x := s.params.resetX, y := s.params.resetY, sp := s.params.resetS, p := s.params.resetP
      pc := joinBytes (s.peek 0xFFFD#16) (s.peek 0xFFFC#16), cyc := s.params.resetCycles } := by
  unfold State.serviceReset
  dsimp only
  rw [State.jumpThrough_vector (by decide) (by decide)]
  rfl

/-- Settles O8: a Reset is always due, and its service loads the parameters and the vector. -/
theorem resetIsServiced : Obligations.ResetIsServiced := by
  unfold Obligations.ResetIsServiced
  intro s hpending q
  have hstep := step_of_due (State.due_of_pending hpending nofun) rfl
  rw [State.service, State.serviceReset_eq] at hstep
  exact ⟨_, hstep, rfl, rfl, rfl, rfl, rfl, rfl, rfl, .refl _⟩

/-! ## Returning from an exception (60_exceptions.md R242) -/

/-- RTI right after an entry pulls what the entry pushed. -/
theorem EntersThrough.exec_rti {vector ret : Addr} {pushed : Byte} {s t : State}
    (h : EntersThrough vector ret pushed s t) :
    ∃ u, exec .rti t = .next u ∧ u.p = pulledFlags pushed ∧ u.pc = ret ∧ ∀ r, u.reg r = s.reg r := by
  obtain ⟨hhigh, hlow, hpushed, hsp, -, -, ⟨hregs, -⟩, -⟩ := h
  have h1 : t.sp + 1#8 = s.sp - 2#8 := by rw [hsp]; bv_omega
  have h2 : t.sp + 2#8 = s.sp - 1#8 := by rw [hsp]; bv_omega
  have h3 : t.sp + 3#8 = s.sp := by rw [hsp]; bv_omega
  refine ⟨_, Machine.exec_rti t, ?_⟩
  simp only [State.leave_eq_peek, State.peek_charge, State.charge_sp, h1, h2, h3, hhigh, hlow, hpushed, joinBytes_high_low,
    true_and]
  intro r
  cases r with
  | sp => rfl
  | a => exact hregs .a (by decide)
  | x => exact hregs .x (by decide)
  | y => exact hregs .y (by decide)

/-- A flag byte comes back from the stack as it was, whichever copy was pushed (10_state.md R15). -/
theorem pulledFlags_pushed {p : Byte} (h : FlagByteOk p) :
    pulledFlags (pushedByService p) = p ∧ pulledFlags (pushedByProgram p) = p := by
  unfold FlagByteOk pulledFlags pushedByService pushedByProgram at *
  revert p
  decide +kernel

/-- Settles O11: each entry leaves on the stack what RTI pulls. -/
theorem returnUndoesTheEntry : Obligations.ReturnUndoesTheEntry := by
  unfold Obligations.ReturnUndoesTheEntry
  intro s hp
  obtain ⟨hservice, hprogram⟩ := pulledFlags_pushed hp
  have hreturn : ∀ vector : Addr, 0x8000 ≤ vector.toNat → vector.toNat ≠ 0xFFFF →
      ∃ t, exec .rti (State.serviceInterrupt vector { s with pending := none }) = .next t ∧ t.p = s.p ∧ t.pc = s.pc
        ∧ ∀ r, t.reg r = s.reg r := by
    intro vector h hv
    obtain ⟨t, ht, hp', hkept⟩ := (State.serviceInterrupt_entersThrough h hv { s with pending := none }).exec_rti
    exact ⟨t, ht, hp'.trans hservice, hkept⟩
  refine ⟨fun k hk => ?_, ?_⟩
  · cases k with
    | irq => exact hreturn Config.vectorIrq (by decide) (by decide)
    | nmi => exact hreturn Config.vectorNmi (by decide) (by decide)
    | reset => exact absurd rfl hk
  · have hentered := State.enter_entersThrough (vector := 0xFFFE#16) (by decide) (by decide) (s.pc + 1#16)
      (pushedByProgram s.p) (s.charge 7)
    obtain ⟨t, ht, hp', hkept⟩ := hentered.exec_rti
    exact ⟨_, t, exec_brk s, ht, hp'.trans hprogram, hkept⟩

/-! ## A masked Irq (60_exceptions.md R236, decision D6) -/

/-- An Irq is pending, or the Nmi that replaced it. -/
def State.Waiting (s : State) : Prop := s.pending = some .irq ∨ s.pending = some .nmi

namespace State.Waiting

/-- No request of a device removes an Irq, and only an Nmi replaces it. -/
theorem merge {s t : State} (h : s.Waiting) (k : Interrupt) (hk : k ≠ .reset) (made : Bool)
    (ht : t.pending = mergeIf made k s.pending) : t.Waiting := by
  unfold State.Waiting at *
  rw [ht]
  cases made with
  | false => exact h
  | true =>
    cases k with
    | reset => exact absurd rfl hk
    | irq =>
      have hkept : mergeIf true .irq s.pending = s.pending :=
        (mergeRequest_irq _).trans (if_neg (by rcases h with h | h <;> simp [h]))
      rwa [hkept]
    | nmi => exact .inr ((mergeRequest_nmi _).trans (if_neg (by rcases h with h | h <;> simp [h])))

theorem touchPpu {s : State} (h : s.Waiting) (a : PpuAddr) : (s.touchPpu a).Waiting := h.merge .irq (by decide) _ rfl

theorem touch {s : State} (h : s.Waiting) (a : Addr) : (s.touch a).Waiting := by
  unfold State.touch
  split
  case h_1 =>
    unfold State.touchPpuRegister
    split
    case h_2 => exact h.touchPpu _
    all_goals exact h
  all_goals exact h

theorem writePpu {s : State} (h : s.Waiting) (a : PpuAddr) (b : Byte) : (s.writePpu a b).Waiting := by
  unfold State.writePpu
  dsimp only
  split
  · exact h.touchPpu a
  · split
    · split <;> exact h
    · exact h

theorem writePpuRegister {s : State} (h : s.Waiting) (r : BitVec 3) (b : Byte) : (s.writePpuRegister r b).Waiting := by
  unfold State.writePpuRegister
  split
  case h_1 => exact h.merge .nmi (by decide) _ rfl
  case h_7 => exact h.writePpu _ b
  all_goals exact h

theorem oamDmaCopy {s : State} (h : s.Waiting) (page : Byte) (k : Nat) : (oamDmaCopy page k s).Waiting := by
  induction k generalizing s with
  | zero => exact h
  | succ k ih => exact ih (h.touch _)

theorem memWrite {s : State} (h : s.Waiting) (a : Addr) (b : Byte) : (s.memWrite a b).1.Waiting := by
  unfold State.memWrite
  split
  case h_2 => exact h.writePpuRegister _ b
  case h_4 =>
    have hcopied := h.oamDmaCopy b 256
    unfold State.oamDma
    -- named, so that no `rfl` runs the 256 rounds of the copy
    generalize Machine.oamDmaCopy b 256 s = copied at *
    exact hcopied
  all_goals exact h

theorem busKeeps : BusKeeps State.Waiting where
  cpu := fun ⟨hpending, _⟩ h => by
    unfold State.Waiting at *
    rwa [hpending]
  touch := fun a _ h => h.touch a
  write := fun a b _ h => h.memWrite a b

theorem apuCycle {s : State} (h : s.Waiting) : s.apuCycle.Waiting := by
  have hframe : s.clockFrameDivider.clockTriangle.Waiting := h.merge .irq (by decide) _ rfl
  have hfilled : s.clockFrameDivider.clockTriangle.fillBuffer.Waiting :=
    holds_ite (fun _ => (hframe.touch _).merge .irq (by decide) _ rfl) hframe
  exact hfilled

theorem fetchBackground {s : State} (h : s.Waiting) (c : Nat) : (s.fetchBackground c).Waiting := by
  unfold State.fetchBackground
  refine holds_ite (fun _ => ?_) h
  split
  case h_5 | h_6 => exact h
  all_goals exact h.touchPpu _

theorem touchPair {s : State} (h : s.Waiting) (a : PpuAddr) : (s.touchPair a).Waiting := (h.touchPpu _).touchPpu _

theorem fetchSlots {s : State} (h : s.Waiting) (k : Nat) (l : List SecondarySprite) : (fetchSlots k l s).2.Waiting := by
  induction k generalizing l s with
  | zero => exact h
  | succ k ih =>
    cases l with
    | nil => exact ih (h.touchPair _) _
    | cons e rest => exact ih (h.touchPair _) _

theorem lineEndWork {s : State} (h : s.Waiting) (c : Nat) : (s.lineEndWork c).Waiting :=
  holds_ite (fun _ => h)
    (holds_ite (fun _ => fetchSlots (s := { s with ppu := { s.ppu with v := copyHorizontal s.ppu.t s.ppu.v } }) h 8 _) h)

theorem vblankWork {s : State} (h : s.Waiting) : s.vblankWork.Waiting :=
  holds_ite (fun _ => h) (holds_ite (fun _ => h.merge .nmi (by decide) _ rfl) h)

theorem preRenderWork {s : State} (h : s.Waiting) : s.preRenderWork.Waiting := by
  unfold State.preRenderWork
  extract_lets c _ cleared worked
  have hcleared : cleared.Waiting := holds_ite (fun _ => h) h
  have hshifted : State.Waiting { cleared with ppu := cleared.ppu.shiftBackground c } := hcleared
  have hworked : worked.Waiting := (hshifted.fetchBackground c).lineEndWork c
  exact holds_ite (fun _ => holds_ite (fun _ => hworked) hworked) hcleared

theorem visibleWork {s : State} (h : s.Waiting) (row : Nat) : (s.visibleWork row).Waiting := by
  unfold State.visibleWork
  extract_lets c on shifted drawn fetched evaluated finished
  have hshifted : shifted.Waiting := holds_ite (fun _ => h) h
  have hdrawn : drawn.Waiting := holds_ite (fun _ => hshifted) hshifted
  have hfetched : fetched.Waiting := holds_ite (fun _ => hdrawn.fetchBackground c) hdrawn
  have hevaluated : evaluated.Waiting := holds_ite (fun _ => hfetched) hfetched
  have hfinished : finished.Waiting := holds_ite (fun _ => hevaluated.lineEndWork c) hevaluated
  exact holds_ite (fun _ => hfinished) hfinished

theorem ppuTick {s : State} (h : s.Waiting) : s.ppuTick.Waiting := by
  have hadvanced : State.Waiting { s with ppu := s.ppu.advance s.params.ppuLayout } := h
  exact holds_ite (fun _ => hadvanced.vblankWork)
    (holds_ite (fun _ => hadvanced.preRenderWork) (holds_ite (fun _ => hadvanced.visibleWork _) hadvanced))

theorem apuStep {s : State} (h : s.Waiting) (n : Nat) : (s.apuStep n).Waiting := by
  induction n generalizing s with
  | zero => exact h
  | succ n ih => exact ih h.apuCycle

theorem ppuStep {s : State} (h : s.Waiting) (n : Nat) : (s.ppuStep n).Waiting := by
  induction n generalizing s with
  | zero => exact h
  | succ n ih => exact ih h.ppuTick

end State.Waiting

/-- Settles O10: under `keep` nothing a step does takes the request away; under `drop` the slot is empty before the
instruction. -/
theorem maskedIrqWaits : Obligations.MaskedIrqWaits := by
  unfold Obligations.MaskedIrqWaits
  intro s hpending hmask
  have hdue : s.due = none := by
    unfold State.due
    rw [hpending]
    simp [hmask]
  have hexec := State.executeOp_of_not_due hdue
  refine ⟨fun hkeep t ht => ?_, fun hdrop => ?_⟩
  · obtain ⟨u, hu, rfl⟩ := executeOp_of_step ht
    have hpassed : State.Waiting (State.passMasked { s with cyc := 0 }) := by
      unfold State.passMasked
      rw [hkeep]
      exact .inl hpending
    have hran : u.Waiting := (State.Waiting.busKeeps.runInstruction hpassed).of_eq (hexec.symm.trans hu)
    exact (hran.apuStep _).ppuStep _
  · have hempty := State.executeOp_of_not_due (s := { s with pending := none }) rfl
    have hslot : State.passMasked { s with cyc := 0 } = State.passMasked { s with pending := none, cyc := 0 } := by
      unfold State.passMasked
      rw [hdrop]
    unfold step State.round
    rw [hexec, hempty, hslot]

end Sys2Proof.Machine
end

section
/-! The PPU family, tier 2: the fields of the address pair and the operations that step and copy them
(61_ppu.md R268, R276, R282). -/

namespace Sys2Proof.Machine

/-! ## Fields as extracted bits (61_ppu.md R268) -/

theorem coarseX_eq_extract (v : BitVec 15) : coarseX v = (v.extractLsb' 0 5).toNat := by simp [coarseX]

theorem coarseY_eq_extract (v : BitVec 15) : coarseY v = (v.extractLsb' 5 5).toNat := by
  simp [coarseY, Nat.shiftRight_eq_div_pow]

theorem nametable_eq_extract (v : BitVec 15) : nametable v = (v.extractLsb' 10 2).toNat := by
  simp [nametable, Nat.shiftRight_eq_div_pow]

/-- The low bit of the nametable, the horizontal one. -/
theorem nametable_mod_eq_extract (v : BitVec 15) : nametable v % 2 = (v.extractLsb' 10 1).toNat := by
  simp only [nametable, BitVec.extractLsb'_toNat, Nat.shiftRight_eq_div_pow]
  omega

/-- The high bit of the nametable, the vertical one. -/
theorem nametable_div_eq_extract (v : BitVec 15) : nametable v / 2 = (v.extractLsb' 11 1).toNat := by
  simp only [nametable, BitVec.extractLsb'_toNat, Nat.shiftRight_eq_div_pow]
  omega

theorem fineY_eq_extract (v : BitVec 15) : fineY v = (v.extractLsb' 12 3).toNat := by
  have := v.isLt
  simp only [fineY, BitVec.extractLsb'_toNat, Nat.shiftRight_eq_div_pow]
  omega

/-- A field that one mask takes out and the other puts in. -/
theorem extract_merge {w lo n : Nat} {a b m k : BitVec w} (hm : m.extractLsb' lo n = 0#n)
    (hk : k.extractLsb' lo n = BitVec.allOnes n) : ((a &&& m) ||| (b &&& k)).extractLsb' lo n = b.extractLsb' lo n := by
  rw [BitVec.extractLsb'_or, BitVec.extractLsb'_and, BitVec.extractLsb'_and, hm, hk, BitVec.and_zero, BitVec.and_allOnes,
    BitVec.zero_or]

/-- A field that a mask keeps. -/
theorem extract_masked {w lo n : Nat} {v m : BitVec w} (hm : m.extractLsb' lo n = BitVec.allOnes n) :
    (v &&& m).extractLsb' lo n = v.extractLsb' lo n := by
  rw [BitVec.extractLsb'_and, hm, BitVec.and_allOnes]

/-- A field that a mask takes out. -/
theorem extract_cleared {w lo n : Nat} {v m : BitVec w} (hm : m.extractLsb' lo n = 0#n) :
    (v &&& m).extractLsb' lo n = 0#n := by
  rw [BitVec.extractLsb'_and, hm, BitVec.and_zero]

/-- A field outside the bit that is turned. -/
theorem extract_turned_other {w lo n : Nat} {v k : BitVec w} (hk : k.extractLsb' lo n = 0#n) :
    (v ^^^ k).extractLsb' lo n = v.extractLsb' lo n := by
  rw [BitVec.extractLsb'_xor, hk, BitVec.xor_zero]

/-- The bit that is turned. -/
theorem extract_turned {w lo : Nat} {v k : BitVec w} (hk : k.extractLsb' lo 1 = 1#1) :
    ((v ^^^ k).extractLsb' lo 1).toNat = 1 - (v.extractLsb' lo 1).toNat := by
  have hbit : ∀ x : BitVec 1, (x ^^^ 1#1).toNat = 1 - x.toNat := by decide
  rw [BitVec.extractLsb'_xor, hk, hbit]

/-! ## Copies (61_ppu.md R276, R282) -/

theorem copyHorizontal_fields (t v : BitVec 15) :
    coarseX (copyHorizontal t v) = coarseX t ∧ nametable (copyHorizontal t v) % 2 = nametable t % 2
      ∧ coarseY (copyHorizontal t v) = coarseY v ∧ fineY (copyHorizontal t v) = fineY v
      ∧ nametable (copyHorizontal t v) / 2 = nametable v / 2 := by
  simp only [coarseX_eq_extract, coarseY_eq_extract, fineY_eq_extract, nametable_mod_eq_extract, nametable_div_eq_extract]
  have hcomm : copyHorizontal t v = (t &&& 0x041F#15) ||| (v &&& 0x7BE0#15) := BitVec.or_comm ..
  refine ⟨?_, ?_, ?_, ?_, ?_⟩ <;> congr 1
  · exact extract_merge rfl rfl
  · exact extract_merge rfl rfl
  · exact hcomm ▸ extract_merge rfl rfl
  · exact hcomm ▸ extract_merge rfl rfl
  · exact hcomm ▸ extract_merge rfl rfl

/-- The vertical copy is the horizontal one with the two registers exchanged. -/
theorem copyVertical_eq (t v : BitVec 15) : copyVertical t v = copyHorizontal v t := BitVec.or_comm ..

/-! ## Steps (61_ppu.md R282) -/

/-- A field put in place reads back. -/
theorem extract_placed {w lo n : Nat} (h : lo + n ≤ w) (x : BitVec n) : (x.setWidth w <<< lo).extractLsb' lo n = x := by
  ext i hi
  simp [show lo + i < w by omega, BitVec.getLsbD_eq_getElem hi]

/-- Comparing a field in place is comparing its bits. -/
theorem masked_eq_iff {w lo n : Nat} (h : lo + n ≤ w) (v : BitVec w) (x : BitVec n) :
    v &&& ((BitVec.allOnes n).setWidth w <<< lo) = x.setWidth w <<< lo ↔ v.extractLsb' lo n = x := by
  have hmask : v &&& ((BitVec.allOnes n).setWidth w <<< lo) = (v.extractLsb' lo n).setWidth w <<< lo := by
    ext i hi
    by_cases hlo : i < lo
    · simp [hlo]
    · simp [hlo, show lo + (i - lo) = i by omega, BitVec.getLsbD_eq_getElem hi, Bool.and_comm]
  rw [hmask]
  refine ⟨fun heq => ?_, fun heq => by rw [heq]⟩
  have := congrArg (BitVec.extractLsb' lo n) heq
  rwa [extract_placed h, extract_placed h] at this

theorem coarseX_masked_iff (v : BitVec 15) : v &&& 0x001F#15 = 0x001F#15 ↔ coarseX v = 31 := by
  rw [coarseX_eq_extract]
  exact (masked_eq_iff (lo := 0) (by decide) v 31#5).trans BitVec.toNat_inj.symm

theorem fineY_masked_iff (v : BitVec 15) : v &&& 0x7000#15 = 0x7000#15 ↔ fineY v = 7 := by
  rw [fineY_eq_extract]
  exact (masked_eq_iff (lo := 12) (by decide) v 7#3).trans BitVec.toNat_inj.symm

theorem coarseY_masked_iff (v : BitVec 15) (x : BitVec 5) :
    v &&& 0x03E0#15 = x.setWidth 15 <<< 5 ↔ coarseY v = x.toNat := by
  rw [coarseY_eq_extract]
  exact (masked_eq_iff (lo := 5) (by decide) v x).trans BitVec.toNat_inj.symm

/-- Turning bit 10, the horizontal nametable bit. -/
theorem turnHorizontal_fields (v : BitVec 15) :
    coarseX (v ^^^ 0x0400#15) = coarseX v ∧ coarseY (v ^^^ 0x0400#15) = coarseY v ∧ fineY (v ^^^ 0x0400#15) = fineY v
      ∧ nametable (v ^^^ 0x0400#15) / 2 = nametable v / 2 ∧ nametable (v ^^^ 0x0400#15) % 2 = 1 - nametable v % 2 := by
  simp only [coarseX_eq_extract, coarseY_eq_extract, fineY_eq_extract, nametable_mod_eq_extract, nametable_div_eq_extract]
  rw [extract_turned_other rfl, extract_turned_other rfl, extract_turned_other rfl, extract_turned_other rfl]
  exact ⟨rfl, rfl, rfl, rfl, extract_turned rfl⟩

/-- Turning bit 11, the vertical nametable bit. -/
theorem turnVertical_fields (v : BitVec 15) :
    coarseX (v ^^^ 0x0800#15) = coarseX v ∧ coarseY (v ^^^ 0x0800#15) = coarseY v ∧ fineY (v ^^^ 0x0800#15) = fineY v
      ∧ nametable (v ^^^ 0x0800#15) % 2 = nametable v % 2 ∧ nametable (v ^^^ 0x0800#15) / 2 = 1 - nametable v / 2 := by
  simp only [coarseX_eq_extract, coarseY_eq_extract, fineY_eq_extract, nametable_mod_eq_extract, nametable_div_eq_extract]
  rw [extract_turned_other rfl, extract_turned_other rfl, extract_turned_other rfl, extract_turned_other rfl]
  exact ⟨rfl, rfl, rfl, rfl, extract_turned rfl⟩

/-- Taking the coarse X out. -/
theorem clearCoarseX_fields (v : BitVec 15) :
    coarseX (v &&& 0x7FE0#15) = 0 ∧ coarseY (v &&& 0x7FE0#15) = coarseY v ∧ fineY (v &&& 0x7FE0#15) = fineY v
      ∧ nametable (v &&& 0x7FE0#15) = nametable v := by
  simp only [coarseX_eq_extract, coarseY_eq_extract, fineY_eq_extract, nametable_eq_extract]
  rw [extract_cleared rfl, extract_masked rfl, extract_masked rfl, extract_masked rfl]
  exact ⟨rfl, rfl, rfl, rfl⟩

/-- Taking the fine and the coarse Y out. -/
theorem clearY_fields (v : BitVec 15) :
    coarseX (v &&& 0x0C1F#15) = coarseX v ∧ coarseY (v &&& 0x0C1F#15) = 0 ∧ fineY (v &&& 0x0C1F#15) = 0
      ∧ nametable (v &&& 0x0C1F#15) = nametable v := by
  simp only [coarseX_eq_extract, coarseY_eq_extract, fineY_eq_extract, nametable_eq_extract]
  rw [extract_masked rfl, extract_cleared rfl, extract_cleared rfl, extract_masked rfl]
  exact ⟨rfl, rfl, rfl, rfl⟩

theorem incrementCoarseX_fields (v : BitVec 15) :
    coarseX (incrementCoarseX v) = (coarseX v + 1) % 32 ∧ coarseY (incrementCoarseX v) = coarseY v
      ∧ fineY (incrementCoarseX v) = fineY v ∧ nametable (incrementCoarseX v) / 2 = nametable v / 2
      ∧ nametable (incrementCoarseX v) % 2 = if coarseX v = 31 then 1 - nametable v % 2 else nametable v % 2 := by
  unfold incrementCoarseX
  simp only [coarseX_masked_iff]
  by_cases hwrap : coarseX v = 31
  · obtain ⟨hx, hy, hfine, hnt⟩ := clearCoarseX_fields v
    obtain ⟨hx', hy', hfine', hhigh, hlow⟩ := turnHorizontal_fields (v &&& 0x7FE0#15)
    rw [if_pos hwrap, if_pos hwrap, hwrap, hx', hy', hfine', hhigh, hlow, hx, hy, hfine, hnt]
    exact ⟨rfl, rfl, rfl, rfl, rfl⟩
  · rw [if_neg hwrap, if_neg hwrap]
    have hv := v.isLt
    unfold coarseX coarseY fineY nametable at *
    have hnext : (v + 1#15).toNat = v.toNat + 1 := by bv_omega
    rw [hnext]
    omega

/-- What the Y step does within a tile, and what it does to the coarse Y at the last row of one. -/
theorem incrementY_eq (v : BitVec 15) :
    incrementY v = if fineY v = 7 then
        if coarseY v = 29 then (v &&& 0x0C1F#15) ^^^ 0x0800#15
        else if coarseY v = 31 then v &&& 0x0C1F#15 else (v &&& 0x0FFF#15) + 0x0020#15
      else v + 0x1000#15 := by
  have h29 : v &&& 0x03E0#15 = 0x03A0#15 ↔ coarseY v = 29 := coarseY_masked_iff v 29#5
  have h31 : v &&& 0x03E0#15 = 0x03E0#15 ↔ coarseY v = 31 := coarseY_masked_iff v 31#5
  simp only [incrementY, ne_eq, fineY_masked_iff, h29, h31, ite_not]

theorem incrementY_fields (v : BitVec 15) :
    coarseX (incrementY v) = coarseX v ∧ fineY (incrementY v) = (fineY v + 1) % 8
      ∧ nametable (incrementY v) % 2 = nametable v % 2
      ∧ coarseY (incrementY v)
          = (if fineY v < 7 then coarseY v else if coarseY v = 29 then 0 else (coarseY v + 1) % 32)
      ∧ nametable (incrementY v) / 2
          = if fineY v = 7 ∧ coarseY v = 29 then 1 - nametable v / 2 else nametable v / 2 := by
  have hv := v.isLt
  obtain ⟨hx, hy, hfine', hnt⟩ := clearY_fields v
  rw [incrementY_eq]
  by_cases hfine : fineY v = 7
  · rw [if_pos hfine, hfine, if_neg (Nat.lt_irrefl 7)]
    by_cases h29 : coarseY v = 29
    · obtain ⟨hx', hy', hfine'', hlow, hhigh⟩ := turnVertical_fields (v &&& 0x0C1F#15)
      rw [if_pos h29, if_pos h29, if_pos ⟨rfl, h29⟩, hx', hy', hfine'', hlow, hhigh, hx, hy, hfine', hnt]
      exact ⟨rfl, rfl, rfl, rfl, rfl⟩
    · rw [if_neg h29, if_neg h29, if_neg (not_and_of_not_right _ h29)]
      by_cases h31 : coarseY v = 31
      · rw [if_pos h31, hx, hy, hfine', hnt, h31]
        exact ⟨rfl, rfl, rfl, rfl, rfl⟩
      · rw [if_neg h31]
        have hrow : (v &&& 0x0FFF#15).toNat = v.toNat % 4096 := by
          rw [BitVec.toNat_and]
          exact Nat.and_two_pow_sub_one_eq_mod v.toNat 12
        have hnext : ((v &&& 0x0FFF#15) + 0x0020#15).toNat = v.toNat % 4096 + 32 := by
          rw [BitVec.toNat_add, hrow]
          simp only [BitVec.toNat_ofNat]
          omega
        unfold coarseX coarseY fineY nametable at *
        rw [hnext]
        omega
  · have hbelow : fineY v < 7 := by
      unfold fineY at *
      omega
    rw [if_neg hfine, if_pos hbelow, if_neg fun h => hfine h.1]
    unfold coarseX coarseY fineY nametable at *
    have hnext : (v + 0x1000#15).toNat = v.toNat + 4096 := by bv_omega
    rw [hnext]
    omega

/-- Settles O47: each step and each copy, field by field. -/
theorem addressSteps : Obligations.AddressSteps := by
  unfold Obligations.AddressSteps
  intro v t x y h c
  obtain ⟨hx, hlow, hy, hfine, hhigh⟩ := copyHorizontal_fields v t
  rw [← copyVertical_eq] at hx hlow hy hfine hhigh
  exact ⟨incrementCoarseX_fields v, incrementY_fields v, copyHorizontal_fields t v, hx, hlow, hy, hfine, hhigh⟩

end Sys2Proof.Machine
end

section
/-! The PPU family, tier 2: the PPU's own address space, and its eight registers as the CPU reads and writes them
(61_ppu.md R262 to R274; 63_cartridge_bus_driver.md R354, R367). -/

namespace Sys2Proof.Machine

/-! ## The byte of memory behind a PPU address -/

theorem ppuOffset_toNat (a : PpuAddr) : (a &&& 0x03FF#14).toNat = a.toNat % 1024 := by
  rw [BitVec.toNat_and]
  exact Nat.and_two_pow_sub_one_eq_mod a.toNat 10

theorem Cart.chrLocation_eq (c : Cart) {a : PpuAddr} (h : a.toNat < 0x2000) :
    c.chrLocation a = 1024 * c.chrSlot.toList.getD (a.toNat / 1024) 0 + a.toNat % 1024 := by
  have hslot : (a.extractLsb' 10 3).toNat = a.toNat / 1024 := by
    rw [BitVec.extractLsb'_toNat, Nat.shiftRight_eq_div_pow]
    omega
  have hbound : a.toNat / 1024 < c.chrSlot.toList.length := by
    rw [Vector.length_toList]
    omega
  unfold Cart.chrLocation
  simp only [ppuOffset_toNat, hslot, List.getD_eq_getElem _ _ hbound, Vector.getElem_toList]

/-- The nametable buffer of each mode, as the table lists it (63_cartridge_bus_driver.md R367). -/
theorem Mirroring.buffer_toNat (m : Mirroring) (n : BitVec 2) : (m.buffer n).toNat = m.buffers.getD n.toNat 0 := by
  revert n
  cases m <;> decide

theorem Cart.nametableLocation_eq (c : Cart) (a : PpuAddr) :
    (c.nametableLocation a).1.toNat = c.mirroring.buffers.getD (a.toNat / 1024 % 4) 0
      ∧ (c.nametableLocation a).2 = a.toNat % 1024 := by
  refine ⟨?_, ppuOffset_toNat a⟩
  show (c.mirroring.buffer (a.extractLsb' 10 2)).toNat = _
  rw [Mirroring.buffer_toNat, BitVec.extractLsb'_toNat, Nat.shiftRight_eq_div_pow]

theorem palIndex_eq (a : PpuAddr) : palIndex (a.setWidth 5) = if a.toNat % 4 = 0 then a.toNat % 16 else a.toNat % 32 := by
  have hmirrors : ∀ x : BitVec 5, palIndex x = if x.toNat % 4 = 0 then x.toNat % 16 else x.toNat := by decide
  rw [hmirrors, BitVec.toNat_setWidth]
  split <;> split <;> omega

/-- What a byte of memory behind the PPU address space holds: CHR, the nametable buffers with the four-screen RAM as their
upper half, the palette. -/
def State.readCell (s : State) : Nat × Nat → Byte
  | (0, k) => s.cart.chr.read k
  | (1, k) => if k < 2048 then s.ppu.ntRam.read k else s.cart.ntExtra.read (k - 2048)
  | (2, k) => s.ppu.palette.read k
  | _ => 0#8

@[simp] theorem State.readCell_chr (s : State) (k : Nat) : s.readCell (0, k) = s.cart.chr.read k := rfl

@[simp] theorem State.readCell_nametable (s : State) (k : Nat) :
    s.readCell (1, k) = if k < 2048 then s.ppu.ntRam.read k else s.cart.ntExtra.read (k - 2048) := rfl

@[simp] theorem State.readCell_palette (s : State) (k : Nat) : s.readCell (2, k) = s.ppu.palette.read k := rfl

@[simp] theorem State.readCell_none (s : State) (i k : Nat) : s.readCell (i + 3, k) = 0#8 := rfl

/-- A PPU read is a read of the byte behind the address. -/
theorem State.peekPpu_eq_readCell (s : State) (a : PpuAddr) : s.peekPpu a = s.readCell (s.ppuCell a) := by
  unfold State.peekPpu State.ppuCell
  split
  next hchr =>
    rw [State.readCell_chr, ← s.cart.chrLocation_eq hchr]
    rfl
  · obtain ⟨hbuffer, hoffset⟩ := s.cart.nametableLocation_eq a
    split
    · have hlt := nametable_offset_lt s.cart a
      rw [State.readCell_nametable, ← hbuffer, ← hoffset]
      dsimp only
      split
      · rw [if_pos (by omega)]
      · rw [if_neg (by omega), Nat.mul_sub, Nat.sub_add_comm (by omega)]
    · rw [State.readCell_palette, palIndex_eq]

/-! ## A PPU write (61_ppu.md R262, R263) -/

/-- A CHR access changes the mapper's registers alone. -/
theorem State.writePpu_chr (s : State) {a : PpuAddr} (b : Byte) (h : a.toNat < 0x2000) :
    ∃ (m : Mapper) (slot : Option Interrupt), s.writePpu a b = { s with
      cart := { s.cart with
        mapper := m
        chr := if s.cart.chr8k = 0 then s.cart.chr.write (s.ppuCell a).2 b else s.cart.chr }
      pending := slot } := by
  obtain ⟨m, hm, -⟩ := s.observe_eq a
  refine ⟨m, (s.touchPpu a).pending, ?_⟩
  have hcell : (s.ppuCell a).2 = s.cart.chrLocation a := by
    rw [s.cart.chrLocation_eq h, State.ppuCell, if_pos h]
  rw [hcell]
  unfold State.writePpu State.touchPpu
  rw [if_pos h, hm]
  unfold Cart.writeChr Cart.chrIsRam
  by_cases hram : s.cart.chr8k = 0
  · simp only [hram]
    rfl
  · simp only [hram, beq_iff_eq, if_false]

theorem State.writePpu_nametable (s : State) {a : PpuAddr} (b : Byte) (h : ¬ a.toNat < 0x2000) (h' : a.toNat < 0x3F00) :
    s.writePpu a b =
      if (s.ppuCell a).2 < 2048 then { s with ppu := { s.ppu with ntRam := s.ppu.ntRam.write (s.ppuCell a).2 b } }
      else { s with cart := { s.cart with ntExtra := s.cart.ntExtra.write ((s.ppuCell a).2 - 2048) b } } := by
  obtain ⟨hbuffer, hoffset⟩ := s.cart.nametableLocation_eq a
  have hlt := nametable_offset_lt s.cart a
  unfold State.writePpu State.ppuCell
  rw [if_neg h, if_pos h', if_neg h, if_pos h', ← hbuffer, ← hoffset]
  dsimp only
  split
  · rw [if_pos (by omega)]
  · rw [if_neg (by omega), Nat.mul_sub, Nat.sub_add_comm (by omega)]

theorem State.writePpu_palette (s : State) {a : PpuAddr} (b : Byte) (h : ¬ a.toNat < 0x3F00) :
    s.writePpu a b =
      { s with ppu := { s.ppu with palette := s.ppu.palette.write (s.ppuCell a).2 (b &&& 0x3F#8) } } := by
  unfold State.writePpu State.ppuCell
  rw [if_neg (by omega), if_neg h, if_neg (by omega), if_neg h, palIndex_eq]

/-- A PPU write moves no byte to another address. -/
theorem State.writePpu_ppuCell (s : State) (a c : PpuAddr) (b : Byte) : (s.writePpu a b).ppuCell c = s.ppuCell c := by
  by_cases hchr : a.toNat < 0x2000
  · obtain ⟨m, slot, heq⟩ := s.writePpu_chr b hchr
    rw [heq]
    rfl
  · by_cases hnt : a.toNat < 0x3F00
    · rw [s.writePpu_nametable b hchr hnt]
      split <;> rfl
    · rw [s.writePpu_palette b hnt]
      rfl

/-- A PPU write writes the byte behind its address, unless that is CHR-ROM. -/
theorem State.writePpu_readCell (s : State) (a : PpuAddr) (b : Byte) (x : Nat × Nat) :
    (s.writePpu a b).readCell x =
      if x = s.ppuCell a ∧ (a.toNat < 0x2000 → s.cart.chr8k = 0) then (if 0x3F00 ≤ a.toNat then b &&& 0x3F#8 else b)
      else s.readCell x := by
  obtain ⟨i, k⟩ := x
  by_cases hchr : a.toNat < 0x2000
  · have hcell : s.ppuCell a = (0, (s.ppuCell a).2) := by rw [State.ppuCell, if_pos hchr]
    obtain ⟨m, slot, heq⟩ := s.writePpu_chr b hchr
    rw [heq, hcell, if_neg (show ¬ 0x3F00 ≤ a.toNat by omega)]
    rcases i with - | - | - | i
    · by_cases hram : s.cart.chr8k = 0 <;> simp [hram, hchr, Memory.read_write, eq_comm (a := k)]
    all_goals simp
  · by_cases hnt : a.toNat < 0x3F00
    · have hcell : s.ppuCell a = (1, (s.ppuCell a).2) := by rw [State.ppuCell, if_neg hchr, if_pos hnt]
      rw [s.writePpu_nametable b hchr hnt, hcell, if_neg (show ¬ 0x3F00 ≤ a.toNat by omega)]
      generalize (s.ppuCell a).2 = k'
      rcases i with - | - | - | i
      case succ.zero =>
        by_cases hk : k = k'
        · subst hk
          split <;> simp [*]
        · have hne : (0 + 1, k) ≠ (1, k') := fun h => hk (congrArg Prod.snd h)
          simp only [hne, false_and, if_false]
          split
          · simp [Memory.read_write_other (Ne.symm hk)]
          · rw [State.readCell_nametable, State.readCell_nametable]
            split
            · rfl
            · exact Memory.read_write_other (by omega)
      all_goals split <;> simp
    · have hcell : s.ppuCell a = (2, (s.ppuCell a).2) := by rw [State.ppuCell, if_neg hchr, if_neg hnt]
      rw [s.writePpu_palette b hnt, hcell, if_pos (show 0x3F00 ≤ a.toNat by omega)]
      rcases i with - | - | - | i
      case succ.succ.zero => simp [hchr, Memory.read_write, eq_comm (a := k)]
      all_goals simp

/-- Settles O41: a PPU read reads the byte behind the address, and a PPU write writes that byte and no other. -/
theorem ppuMemoryReadsBack : Obligations.PpuMemoryReadsBack := by
  unfold Obligations.PpuMemoryReadsBack
  intro s a c b
  rw [State.peekPpu_eq_readCell, State.peekPpu_eq_readCell, State.peekPpu_eq_readCell, State.writePpu_ppuCell]
  exact ⟨fun h => by rw [h], s.writePpu_readCell a b (s.ppuCell c)⟩

end Sys2Proof.Machine
end

section
/-! The PPU family, tier 2: the eight PPU registers as the CPU reads and writes them through any mirror
(61_ppu.md R264 to R274). -/

namespace Sys2Proof.Machine

/-! ## A register access by its number (20_memory.md R47) -/

section Mirrors
variable {a : Addr} (s : State) (b : Byte) (h : 0x2000 ≤ a.toNat) (h' : a.toNat < 0x4000) {k : Nat} (hk : a.toNat % 8 = k)
include h h' hk

theorem State.memWrite_ppuRegister : (s.memWrite a b).1 = s.writePpuRegister (BitVec.ofNat 3 k) b := by
  rw [s.memWrite_ppu b h h', hk]

theorem State.touch_ppuRegister : s.touch a = s.touchPpuRegister (BitVec.ofNat 3 k) := by
  rw [s.touch_ppu h h', hk]

theorem State.peek_ppuRegister : s.peek a = s.peekPpuRegister (BitVec.ofNat 3 k) := by
  rw [s.peek_ppu h h', hk]

end Mirrors

/-! ## $2000 to $2004 (61_ppu.md R264 to R267) -/

theorem Ppu.writeCtrl_fields (b : Byte) (p : Ppu) :
    nametable (p.writeCtrl b).t = b.toNat % 4 ∧ coarseX (p.writeCtrl b).t = coarseX p.t
      ∧ coarseY (p.writeCtrl b).t = coarseY p.t ∧ fineY (p.writeCtrl b).t = fineY p.t := by
  have hb : b.toNat % 4 = (b.extractLsb' 0 2).toNat := by simp
  rw [hb]
  simp only [coarseX_eq_extract, coarseY_eq_extract, fineY_eq_extract, nametable_eq_extract, Ppu.writeCtrl]
  refine ⟨?_, ?_, ?_, ?_⟩ <;> congr 1 <;> ext i hi <;> interval_cases i <;> simp

theorem mergeIf_ctrlRefires (b : Byte) (s : State) :
    mergeIf (s.ppu.ctrlRefires b) .nmi s.pending
      = if s.ppu.ctrl.getLsbD 7 = false ∧ b.getLsbD 7 ∧ s.ppu.status.getLsbD 7 then (s.request .nmi).pending
        else s.pending := by
  unfold mergeIf Ppu.ctrlRefires
  simp [and_assoc]

/-- The three bits a read of $2002 returns. -/
theorem statusBits (status : Byte) {i : Nat} (hi : i < 8) :
    (status &&& 0xE0#8).getLsbD i = (decide (5 ≤ i) && status.getLsbD i) := by
  interval_cases i <;> simp

/-- The bits a read of $2002 leaves. -/
theorem clearVblank_bits (status : Byte) (i : Nat) :
    (status &&& 0x7F#8).getLsbD i = (decide (i ≠ 7) && status.getLsbD i) := by
  by_cases hi : i < 8
  · interval_cases i <;> simp
  · simp [BitVec.getLsbD_of_ge status i (by omega)]

/-- Settles O42: register by register, through the mirror's number. -/
theorem controlStatusAndOamRegisters : Obligations.ControlStatusAndOamRegisters := by
  unfold Obligations.ControlStatusAndOamRegisters
  intro s a b h h' t u
  refine ⟨fun hk => ?_, fun hk => ?_, fun hk => ?_, fun hk => ?_, fun hk => ?_⟩
  · have ht : t = s.writePpuRegister 0#3 b := s.memWrite_ppuRegister b h h' hk
    obtain ⟨hnt, hx, hy, hfine⟩ := s.ppu.writeCtrl_fields b
    rw [ht]
    exact ⟨rfl, hnt, hx, hy, hfine, mergeIf_ctrlRefires b s⟩
  · exact s.memWrite_ppuRegister b h h' hk
  · have hpeek : s.peek a = s.peekPpuRegister 2#3 := s.peek_ppuRegister h h' hk
    have hu : u = s.touchPpuRegister 2#3 := s.touch_ppuRegister h h' hk
    rw [hpeek, hu]
    refine ⟨fun i => statusBits s.ppu.status, rfl, clearVblank_bits s.ppu.status, ?_⟩
    show (s.ppu.vblankLock || (s.ppu.scanline == 261 && s.ppu.cycle == 340)) = true ↔ _
    simp
  · exact s.memWrite_ppuRegister b h h' hk
  · have hpeek : s.peek a = s.peekPpuRegister 4#3 := s.peek_ppuRegister h h' hk
    have ht : t = s.writePpuRegister 4#3 b := s.memWrite_ppuRegister b h h' hk
    rw [hpeek, ht]
    refine ⟨rfl, rfl, BitVec.toNat_add .., fun k => ?_⟩
    show (s.ppu.oam.write s.ppu.oamAddr.toNat b).read k = _
    simp only [Memory.read_write, eq_comm (a := k)]

/-! ## $2005 and $2006 (61_ppu.md R269) -/

theorem Ppu.writeScroll_eq (b : Byte) (p : Ppu) :
    p.writeScroll b = { p with t := (p.writeScroll b).t, fineX := (p.writeScroll b).fineX, w := !p.w } := by
  cases hw : p.w <;> simp [Ppu.writeScroll, hw]

theorem Ppu.writeScroll_first {p : Ppu} (b : Byte) (h : p.w = false) :
    coarseX (p.writeScroll b).t = b.toNat / 8 ∧ (p.writeScroll b).fineX = b.setWidth 3
      ∧ coarseY (p.writeScroll b).t = coarseY p.t
      ∧ fineY (p.writeScroll b).t = fineY p.t ∧ nametable (p.writeScroll b).t = nametable p.t := by
  have hb : b.toNat / 8 = (b.extractLsb' 3 5).toNat := by
    have := b.isLt
    rw [BitVec.extractLsb'_toNat, Nat.shiftRight_eq_div_pow]
    omega
  rw [hb]
  simp only [coarseX_eq_extract, coarseY_eq_extract, fineY_eq_extract, nametable_eq_extract, Ppu.writeScroll, h]
  refine ⟨?_, rfl, ?_, ?_, ?_⟩ <;> congr 1 <;> ext i hi <;> interval_cases i <;> simp

theorem Ppu.writeScroll_second {p : Ppu} (b : Byte) (h : p.w = true) :
    fineY (p.writeScroll b).t = b.toNat % 8 ∧ coarseY (p.writeScroll b).t = b.toNat / 8
      ∧ coarseX (p.writeScroll b).t = coarseX p.t ∧ (p.writeScroll b).fineX = p.fineX
      ∧ nametable (p.writeScroll b).t = nametable p.t := by
  have hb : b.toNat / 8 = (b.extractLsb' 3 5).toNat := by
    have := b.isLt
    rw [BitVec.extractLsb'_toNat, Nat.shiftRight_eq_div_pow]
    omega
  have hb' : b.toNat % 8 = (b.extractLsb' 0 3).toNat := by simp
  rw [hb, hb']
  simp only [coarseX_eq_extract, coarseY_eq_extract, fineY_eq_extract, nametable_eq_extract, Ppu.writeScroll, h]
  refine ⟨?_, ?_, ?_, rfl, ?_⟩ <;> congr 1 <;> ext i hi <;> interval_cases i <;> simp

theorem Ppu.writeAddress_eq (b : Byte) (p : Ppu) :
    p.writeAddress b = { p with t := (p.writeAddress b).t, v := (p.writeAddress b).v, w := !p.w } := by
  cases hw : p.w <;> simp [Ppu.writeAddress, hw]

/-- An address is its high seven bits and its low byte. -/
theorem address_toNat (v : BitVec 15) : v.toNat = (v.extractLsb' 8 7).toNat * 256 + (v.extractLsb' 0 8).toNat := by
  have := v.isLt
  simp only [BitVec.extractLsb'_toNat, Nat.shiftRight_eq_div_pow]
  omega

theorem Ppu.writeAddress_first {p : Ppu} (b : Byte) (h : p.w = false) :
    (p.writeAddress b).t.toNat = b.toNat % 64 * 256 + p.t.toNat % 256 ∧ (p.writeAddress b).v = p.v := by
  have hhigh : (p.writeAddress b).t.extractLsb' 8 7 = (b.extractLsb' 0 6).setWidth 7 := by
    simp only [Ppu.writeAddress, h]
    ext i hi
    interval_cases i <;> simp
  have hlow : (p.writeAddress b).t.extractLsb' 0 8 = p.t.extractLsb' 0 8 := by
    simp only [Ppu.writeAddress, h]
    ext i hi
    interval_cases i <;> simp
  refine ⟨?_, by simp [Ppu.writeAddress, h]⟩
  rw [address_toNat, hhigh, hlow]
  simp
  omega

theorem Ppu.writeAddress_second {p : Ppu} (b : Byte) (h : p.w = true) :
    (p.writeAddress b).t.toNat = p.t.toNat / 256 * 256 + b.toNat ∧ (p.writeAddress b).v = (p.writeAddress b).t := by
  have hhigh : (p.writeAddress b).t.extractLsb' 8 7 = p.t.extractLsb' 8 7 := by
    simp only [Ppu.writeAddress, h]
    ext i hi
    interval_cases i <;> simp
  have hlow : (p.writeAddress b).t.extractLsb' 0 8 = b := by
    simp only [Ppu.writeAddress, h]
    ext i hi
    interval_cases i <;> simp
  refine ⟨?_, by simp [Ppu.writeAddress, h]⟩
  rw [address_toNat, hhigh, hlow, address_toNat p.t]
  simp
  omega

/-- Settles O43: each write of a pair by its fields, the toggle telling which of the two it is. -/
theorem scrollAndAddressWrites : Obligations.ScrollAndAddressWrites := by
  unfold Obligations.ScrollAndAddressWrites
  intro s a b h h' p t q
  refine ⟨fun hk => ?_, fun hk => ?_, fun hk => ?_, rfl⟩
  · have ht : t = s.writePpuRegister 5#3 b := s.memWrite_ppuRegister b h h' hk
    have hq : q = p.writeScroll b := congrArg State.ppu ht
    rw [ht, hq]
    refine ⟨congrArg (fun r => ({ s with ppu := r } : State)) (p.writeScroll_eq b), ?_⟩
    cases hw : p.w with
    | false =>
      obtain ⟨hx, hfineX, hy, hfineY, hnt⟩ := p.writeScroll_first b hw
      exact ⟨hnt, fun _ => ⟨hx, by simp [hfineX], hy, hfineY⟩, nofun⟩
    | true =>
      obtain ⟨hfineY, hy, hx, hfineX, hnt⟩ := p.writeScroll_second b hw
      exact ⟨hnt, nofun, fun _ => ⟨hfineY, hy, hx, hfineX⟩⟩
  · have ht : t = s.writePpuRegister 6#3 b := s.memWrite_ppuRegister b h h' hk
    have hq : q = p.writeAddress b := congrArg State.ppu ht
    rw [ht, hq]
    exact ⟨congrArg (fun r => ({ s with ppu := r } : State)) (p.writeAddress_eq b), p.writeAddress_first b,
      p.writeAddress_second b⟩
  · rcases hk with hk | hk
    · exact s.peek_ppuRegister h h' hk
    · exact s.peek_ppuRegister h h' hk

/-! ## $2007 (61_ppu.md R272, R273) -/

theorem Ppu.dataAddress_eq (p : Ppu) : p.dataAddress = BitVec.ofNat 14 p.v.toNat := (BitVec.ofNat_toNat 14 p.v).symm

theorem Ppu.vStep_toNat (p : Ppu) : p.vStep.toNat = if p.ctrl.getLsbD 2 then 32 else 1 := by
  unfold Ppu.vStep
  split <;> rfl

/-- The step of `v` in integers. -/
theorem Ppu.stepped_eq (p : Ppu) : p.v + p.vStep = BitVec.ofNat 15 (p.v.toNat + if p.ctrl.getLsbD 2 then 32 else 1) := by
  apply BitVec.eq_of_toNat_eq
  rw [BitVec.toNat_add, BitVec.toNat_ofNat, p.vStep_toNat]

/-- A PPU write changes no register of the PPU. -/
theorem State.writePpu_ctrl (a : PpuAddr) (b : Byte) (s : State) : (s.writePpu a b).ppu.ctrl = s.ppu.ctrl := by
  unfold State.writePpu
  dsimp only
  split
  · rfl
  · split
    · split <;> rfl
    · rfl

/-- Setting the address $2007 uses: a read of $2002, then the two writes of $2006. -/
def State.aimData (address : PpuAddr) (s : State) : State :=
  (((s.touch 0x2002#16).memWrite 0x2006#16 (BitVec.ofNat 8 (address.toNat / 256))).1.memWrite 0x2006#16
    (BitVec.ofNat 8 address.toNat)).1

theorem State.aimData_eq (address : PpuAddr) (s : State) :
    ∃ (status : Byte) (lock : Bool) (t : BitVec 15), s.aimData address = { s with
      ppu := { s.ppu with status := status, vblankLock := lock, t := t, v := address.setWidth 15, w := false } } := by
  let first : Ppu := (s.ppu.touchStatus s.params.ppuLayout).writeAddress (BitVec.ofNat 8 (address.toNat / 256))
  let second : Ppu := first.writeAddress (BitVec.ofNat 8 address.toNat)
  have haimed : s.aimData address = { s with ppu := second } := rfl
  obtain ⟨ht, -⟩ := Ppu.writeAddress_first (p := s.ppu.touchStatus s.params.ppuLayout)
    (BitVec.ofNat 8 (address.toNat / 256)) rfl
  obtain ⟨ht', hv'⟩ := Ppu.writeAddress_second (p := first) (BitVec.ofNat 8 address.toNat) rfl
  have hv : second.v = address.setWidth 15 := by
    apply BitVec.eq_of_toNat_eq
    rw [hv', ht', ht]
    simp
    omega
  refine ⟨second.status, second.vblankLock, second.t, ?_⟩
  rw [haimed, ← hv]
  rfl

/-- Below the palette a read of $2007 returns the buffer. -/
theorem State.peekPpuRegister_data {s : State} (h : s.ppu.dataAddress.toNat < 0x3F00) :
    s.peekPpuRegister 7#3 = s.ppu.readBuffer := if_pos h

/-- Below the palette a read of $2007 refills the buffer from its own address. -/
theorem State.touchData_readBuffer {s : State} (h : s.ppu.dataAddress.toNat < 0x3F00) :
    s.touchData.ppu.readBuffer = s.peekPpu s.ppu.dataAddress := by
  simp only [State.touchData, h, if_true]

/-- A byte written is the second of two reads from its address, where the step stays below the palette. -/
theorem State.readBack {a : Addr} (s : State) (h : 0x2000 ≤ a.toNat) (h' : a.toNat < 0x4000) (hk : a.toNat % 8 = 7)
    {address : PpuAddr} (hlow : address.toNat + s.ppu.vStep.toNat < 0x3F00) :
    ((s.aimData address).touch a).peek a = s.peekPpu address := by
  obtain ⟨status, lock, t, heq⟩ := s.aimData_eq address
  have haddress : (s.aimData address).ppu.dataAddress = address := by
    rw [heq]
    simp [Ppu.dataAddress]
  have hstep : (s.aimData address).ppu.vStep = s.ppu.vStep := by rw [heq]; rfl
  have hv : (s.aimData address).ppu.v = address.setWidth 15 := by rw [heq]
  have hsame : (s.aimData address).peekPpu address = s.peekPpu address := by rw [heq]; rfl
  have hbelow : ((address.setWidth 15 + s.ppu.vStep).setWidth 14).toNat < 0x3F00 := by
    rw [BitVec.toNat_setWidth, BitVec.toNat_add, BitVec.toNat_setWidth]
    omega
  rw [State.touch_ppuRegister _ h h' hk, State.peek_ppuRegister _ h h' hk]
  have hmoved : (s.aimData address).touchData.ppu.dataAddress = (address.setWidth 15 + s.ppu.vStep).setWidth 14 := by
    rw [← hv, ← hstep]
    rfl
  exact (State.peekPpuRegister_data (s := (s.aimData address).touchData) (by rwa [hmoved])).trans
    ((State.touchData_readBuffer (by rw [haddress]; omega)).trans (by rw [haddress, hsame]))

/-- Settles O44: the address is the low 14 bits of `v`; a byte written comes back because the reads that follow see it
behind its address. -/
theorem dataPort : Obligations.DataPort := by
  unfold Obligations.DataPort
  intro s a b h h' hk address under step next t u aim
  have haddress : s.ppu.dataAddress = address := s.ppu.dataAddress_eq
  have hnext : s.ppu.v + s.ppu.vStep = next := s.ppu.stepped_eq
  have ht : t = { s.writePpu address b with ppu := { (s.writePpu address b).ppu with v := next } } := by
    rw [← haddress, ← hnext]
    exact s.memWrite_ppuRegister b h h' hk
  refine ⟨ht, ?_, ?_, fun hlow hram => ?_⟩
  · rw [← haddress]
    exact s.peek_ppuRegister h h' hk
  · have hu : u = s.touchData := s.touch_ppuRegister h h' hk
    rw [hu, State.touchData, haddress, hnext]
  · have hstep : t.ppu.vStep.toNat = step := by
      rw [ht, Ppu.vStep_toNat]
      show (if (s.writePpu address b).ppu.ctrl.getLsbD 2 then 32 else 1) = _
      rw [State.writePpu_ctrl]
    have hread : t.peekPpu address = (s.writePpu address b).peekPpu address := by rw [ht]; rfl
    have hback : (aim t).touch a = (t.aimData address).touch a := rfl
    rw [hback, t.readBack h h' hk (by omega), hread, (ppuMemoryReadsBack s address address b).2, if_pos ⟨rfl, hram⟩,
      if_neg (by omega)]

end Sys2Proof.Machine
end

section
/-! The PPU family, tier 2: the position of the PPU over a frame, and the edge of the VBlank flag (61_ppu.md R261, R270,
R271, R275). -/

namespace Sys2Proof.Machine

/-! ## The position over any number of cycles -/

theorem State.ppuStep_succ (n : Nat) (s : State) : s.ppuStep (n + 1) = (s.ppuStep n).ppuTick := by
  induction n generalizing s with
  | zero => rfl
  | succ n ih => exact ih s.ppuTick

/-- On an odd frame while rendering the pre-render scanline is one cycle short. -/
def Ppu.skips (p : Ppu) : Bool := p.oddFrame && p.rendering

theorem Ppu.lineLength_eq (layout : Config.PpuLayout) (p : Ppu) :
    p.lineLength layout = if p.scanline = 20 ∧ p.skips = true then 340 else 341 := by
  simp only [Ppu.lineLength, Ppu.skips, Config.PpuLayout.preLine_eq, Bool.and_eq_true]
  rfl

theorem Ppu.lineLength_full (layout : Config.PpuLayout) {p : Ppu} (h : p.scanline ≠ 20) : p.lineLength layout = 341 := by
  rw [p.lineLength_eq, if_neg fun h' => h h'.1]

/-- The three cases of an advance as one update. -/
theorem Ppu.advance_eq (layout : Config.PpuLayout) (p : Ppu) :
    p.advance layout = { p with
      cycle := if p.cycle + 1 < p.lineLength layout then p.cycle + 1 else 0
      scanline :=
        if p.cycle + 1 < p.lineLength layout then p.scanline
        else if p.scanline + 1 = 262 then 0 else p.scanline + 1
      oddFrame := p.oddFrame != decide (¬ p.cycle + 1 < p.lineLength layout ∧ p.scanline + 1 = 262) } := by
  unfold Ppu.advance
  by_cases hnext : p.cycle + 1 < p.lineLength layout
  · simp [hnext]
  · by_cases hframe : p.scanline + 1 = 262 <;> simp [hnext, hframe]

/-- One cycle further, by the number of the cycle: 7159 is (20, 339), and 89341 the last cycle of a frame. -/
theorem Ppu.advance_position (layout : Config.PpuLayout) {p : Ppu} (h : p.PositionOk)
    (hskip : p.skips = true → p.position ≠ 7160) :
    (p.advance layout).position = (if p.skips = true ∧ p.position = 7159 then 7161 else (p.position + 1) % 89342)
      ∧ (p.advance layout).oddFrame = (p.oddFrame != decide (p.position = 89341)) := by
  obtain ⟨hcycle, hline⟩ := h
  rw [p.advance_eq, p.lineLength_eq]
  unfold Ppu.position at *
  cases hs : p.skips with
  | false =>
    simp only [Bool.false_eq_true, and_false, false_and, if_false]
    refine ⟨?_, congrArg (p.oddFrame != ·) (decide_eq_decide.mpr (by omega))⟩
    split_ifs <;> omega
  | true =>
    have hskip := hskip hs
    simp only [and_true, true_and]
    refine ⟨?_, congrArg (p.oddFrame != ·) (decide_eq_decide.mpr ?_)⟩ <;> split_ifs <;> omega

/-- One cycle of the machine advances the position once: the work of the cycle does not reach it. -/
theorem State.ppuTick_position {s : State} (h : s.ppu.PositionOk) (hskip : s.ppu.skips = true → s.ppu.position ≠ 7160) :
    s.ppuTick.ppu.position
        = (if s.ppu.skips = true ∧ s.ppu.position = 7159 then 7161 else (s.ppu.position + 1) % 89342)
      ∧ s.ppuTick.ppu.oddFrame = (s.ppu.oddFrame != decide (s.ppu.position = 89341)) := by
  obtain ⟨hcycle, hline, hodd, -⟩ := s.ppuTick_place
  obtain ⟨hposition, hparity⟩ := Ppu.advance_position s.params.ppuLayout h hskip
  have hsame : s.ppuTick.ppu.position = (s.ppu.advance s.params.ppuLayout).position := by
    unfold Ppu.position
    rw [hcycle, hline]
  exact ⟨hsame.trans hposition, hodd.trans hparity⟩

theorem State.ppuTick_rendering (s : State) : s.ppuTick.ppu.rendering = s.ppu.rendering := by
  obtain ⟨-, -, -, hmask⟩ := s.ppuTick_place
  have hadvance : (s.ppu.advance s.params.ppuLayout).mask = s.ppu.mask := by rw [Ppu.advance_eq]
  unfold Ppu.rendering
  rw [hmask, hadvance]

theorem State.ppuStep_rendering (n : Nat) (s : State) : (s.ppuStep n).ppu.rendering = s.ppu.rendering := by
  induction n with
  | zero => rfl
  | succ n ih => rw [State.ppuStep_succ, State.ppuTick_rendering, ih]

theorem State.ppuStep_positionOk (n : Nat) {s : State} (h : s.ppu.PositionOk) : (s.ppuStep n).ppu.PositionOk := by
  induction n with
  | zero => exact h
  | succ n ih =>
    rw [State.ppuStep_succ]
    exact State.ppuTick_positionOk ih

theorem Ppu.PositionOk.position_lt {p : Ppu} (h : p.PositionOk) : p.position < 89342 := by
  obtain ⟨hcycle, hline⟩ := h
  unfold Ppu.position
  omega

/-- With rendering off every frame has 89342 cycles. -/
theorem State.ppuStep_position_off {s : State} (h : s.ppu.PositionOk) (hoff : s.ppu.rendering = false) (n : Nat) :
    (s.ppuStep n).ppu.position = (s.ppu.position + n) % 89342
      ∧ (s.ppuStep n).ppu.oddFrame = (s.ppu.oddFrame != decide ((s.ppu.position + n) / 89342 % 2 = 1)) := by
  have hlt := h.position_lt
  induction n with
  | zero =>
    have hzero : s.ppu.position / 89342 = 0 := Nat.div_eq_of_lt hlt
    exact ⟨(Nat.mod_eq_of_lt hlt).symm, by simp [State.ppuStep, hzero]⟩
  | succ n ih =>
    obtain ⟨hposition, hparity⟩ := ih
    have hskips : (s.ppuStep n).ppu.skips = false := by
      unfold Ppu.skips
      rw [State.ppuStep_rendering, hoff, Bool.and_false]
    obtain ⟨hposition', hparity'⟩ := State.ppuTick_position (State.ppuStep_positionOk n h) (by simp [hskips])
    rw [State.ppuStep_succ, hposition', hparity', hposition, hparity]
    refine ⟨?_, ?_⟩
    · rw [if_neg (by simp [hskips])]
      omega
    · rw [Bool.bne_assoc]
      congr 1
      rw [Bool.eq_iff_iff, bne_iff_ne, ne_eq, decide_eq_decide, decide_eq_true_iff]
      omega

/-- The number of the cycle reached after `n` cycles of a frame while rendering: an odd frame leaves out (20, 340). -/
def renderedPosition (odd : Bool) (n : Nat) : Nat := if odd = true ∧ 7160 ≤ n then n + 1 else n

theorem renderedPosition_even (n : Nat) : renderedPosition false n = n := by simp [renderedPosition]

theorem renderedPosition_odd (n : Nat) : renderedPosition true n = if 7160 ≤ n then n + 1 else n := by
  simp [renderedPosition]

theorem renderedPosition_succ (odd : Bool) (n : Nat) :
    renderedPosition odd (n + 1)
      = if odd = true ∧ renderedPosition odd n = 7159 then 7161 else renderedPosition odd n + 1 := by
  cases odd with
  | false => simp [renderedPosition_even]
  | true =>
    simp only [renderedPosition_odd, true_and]
    split_ifs <;> omega

theorem renderedPosition_odd_ne (n : Nat) : renderedPosition true n ≠ 7160 := by
  rw [renderedPosition_odd]
  split <;> omega

/-- With rendering on, a frame from its first cycle up to its last. -/
theorem State.ppuStep_position_on {s : State} (h : s.ppu.PositionOk) (hon : s.ppu.rendering = true)
    (hstart : s.ppu.position = 0) {n : Nat} (hn : renderedPosition s.ppu.oddFrame n < 89342) :
    (s.ppuStep n).ppu.position = renderedPosition s.ppu.oddFrame n ∧ (s.ppuStep n).ppu.oddFrame = s.ppu.oddFrame := by
  induction n with
  | zero => exact ⟨hstart.trans (by simp [renderedPosition]), rfl⟩
  | succ n ih =>
    rw [renderedPosition_succ] at hn ⊢
    have hbefore : renderedPosition s.ppu.oddFrame n < 89341 := by
      split_ifs at hn <;> omega
    obtain ⟨hposition, hparity⟩ := ih (by omega)
    have hskips : (s.ppuStep n).ppu.skips = s.ppu.oddFrame := by
      unfold Ppu.skips
      rw [State.ppuStep_rendering, hon, hparity, Bool.and_true]
    obtain ⟨hposition', hparity'⟩ := State.ppuTick_position (State.ppuStep_positionOk n h) (by
      rw [hskips, hposition]
      exact fun hodd => hodd ▸ renderedPosition_odd_ne n)
    rw [State.ppuStep_succ, hposition', hparity', hskips, hposition, hparity, Nat.mod_eq_of_lt (by omega),
      decide_eq_false (by omega), Bool.bne_false]
    exact ⟨rfl, rfl⟩

/-- The frame ends at its last cycle, with the parity turned. -/
theorem State.ppuStep_frameEnd {s : State} (h : s.ppu.PositionOk) (hon : s.ppu.rendering = true)
    (hstart : s.ppu.position = 0) {n length : Nat} (hn : renderedPosition s.ppu.oddFrame n = 89341) (hl : length = n + 1) :
    (s.ppuStep length).ppu.position = 0 ∧ (s.ppuStep length).ppu.oddFrame = !s.ppu.oddFrame := by
  subst hl
  obtain ⟨hposition, hparity⟩ := State.ppuStep_position_on h hon hstart (n := n) (by omega)
  obtain ⟨hposition', hparity'⟩ :=
    State.ppuTick_position (State.ppuStep_positionOk n h) (fun _ => by omega)
  rw [State.ppuStep_succ, hposition', hparity', hposition, hparity, hn]
  exact ⟨by simp, by simp⟩

/-- Settles O46: the position counts the cycles of the frame, of which an odd frame has one less while rendering. -/
theorem frameGeometry : Obligations.FrameGeometry := by
  unfold Obligations.FrameGeometry
  intro s n h
  refine ⟨fun hoff => State.ppuStep_position_off h hoff n, fun hon hstart => ?_⟩
  have hwithin : renderedPosition s.ppu.oddFrame n < 89342 →
      (s.ppuStep n).ppu.oddFrame = s.ppu.oddFrame ∧ (s.ppuStep n).ppu.PositionOk
        ∧ (n ≠ 0 → (s.ppuStep n).ppu.position ≠ 0) := by
    intro hlast
    obtain ⟨hposition, hparity⟩ := State.ppuStep_position_on h hon hstart hlast
    refine ⟨hparity, State.ppuStep_positionOk n h, fun hne => ?_⟩
    rw [hposition, renderedPosition]
    split <;> omega
  have hend := fun (k length : Nat) => State.ppuStep_frameEnd h hon hstart (n := k) (length := length)
  cases hodd : s.ppu.oddFrame with
  | false =>
    rw [hodd, renderedPosition_even] at hwithin
    simp only [hodd, renderedPosition_even] at hend
    simp only [Bool.false_eq_true, if_false]
    exact ⟨hwithin, hend 89341 _ rfl rfl⟩
  | true =>
    rw [hodd, renderedPosition_odd] at hwithin
    simp only [hodd, renderedPosition_odd] at hend
    simp only [if_true]
    exact ⟨fun hn => hwithin (by split <;> omega), hend 89340 _ rfl rfl⟩

/-! ## The edge of the VBlank flag (61_ppu.md R270, R271) -/

/-- The cycle that enters the VBlank-start scanline sets the flag, unless the lock is on, and takes the lock off. -/
theorem State.ppuTick_edge {s : State} (hline : s.ppu.scanline = 261) (hcycle : s.ppu.cycle = 340) :
    s.ppuTick = { s with
      ppu := { s.ppu with
        cycle := 0, scanline := 0, oddFrame := !s.ppu.oddFrame, vblankLock := false
        status := if s.ppu.vblankLock then s.ppu.status else s.ppu.status ||| 0x80#8 } } := by
  have hadvance : s.ppu.advance s.params.ppuLayout
      = { s.ppu with cycle := 0, scanline := 0, oddFrame := !s.ppu.oddFrame } := by
    simp [Ppu.advance, Ppu.lineLength_full _ (show s.ppu.scanline ≠ 20 by omega), hline, hcycle]
  unfold State.ppuTick
  rw [hadvance]
  rfl

/-- A cycle within the VBlank-start scanline: the Nmi is requested at cycle 2, if the flag is still set. -/
theorem State.ppuTick_vblankLine {s : State} (hline : s.ppu.scanline = 0) (hcycle : s.ppu.cycle < 340) :
    s.ppuTick = { s with
      ppu := { s.ppu with cycle := s.ppu.cycle + 1 }
      pending :=
        mergeIf (decide (s.ppu.cycle = 1) && (s.ppu.status.getLsbD 7 && s.ppu.ctrl.getLsbD 7)) .nmi s.pending } := by
  have hadvance : s.ppu.advance s.params.ppuLayout = { s.ppu with cycle := s.ppu.cycle + 1 } :=
    if_pos (by rw [Ppu.lineLength_full _ (show s.ppu.scanline ≠ 20 by omega)]; omega)
  unfold State.ppuTick
  rw [hadvance]
  unfold State.ppuWork State.vblankWork
  by_cases hone : s.ppu.cycle = 1
  · simp [hline, hone]
  · simp [hline, hone, mergeIf]

/-- The two cycles after the edge. -/
theorem State.ppuStep_afterEdge {s : State} (hline : s.ppu.scanline = 0) (hcycle : s.ppu.cycle = 0) :
    s.ppuStep 2 = { s with
      ppu := { s.ppu with cycle := 2 }
      pending := mergeIf (s.ppu.status.getLsbD 7 && s.ppu.ctrl.getLsbD 7) .nmi s.pending } := by
  have hfirst : s.ppuTick = { s with ppu := { s.ppu with cycle := 1 } } := by
    rw [State.ppuTick_vblankLine hline (by omega)]
    simp [hcycle, mergeIf]
  show s.ppuTick.ppuTick = _
  rw [State.ppuTick_vblankLine (s := s.ppuTick) (by rw [hfirst]; exact hline) (by simp [hfirst]), hfirst]
  rfl

/-- The two cycles after the edge request nothing where the flag is not set. -/
theorem State.ppuStep_afterEdge_clear {s : State} (hline : s.ppu.scanline = 0) (hcycle : s.ppu.cycle = 0)
    (hclear : s.ppu.status.getLsbD 7 = false) : s.ppuStep 2 = { s with ppu := { s.ppu with cycle := 2 } } := by
  rw [State.ppuStep_afterEdge hline hcycle, hclear]
  rfl

theorem State.touch_status (s : State) :
    s.touch 0x2002#16 = { s with ppu := s.ppu.touchStatus s.params.ppuLayout } := rfl

/-- The flag, once read, is no longer set. -/
theorem State.touch_status_clear (s : State) : (s.touch 0x2002#16).ppu.status.getLsbD 7 = false := by
  simp [State.touch_status, Ppu.touchStatus]

/-- A read of $2002 returns the flag in bit 7. -/
theorem State.peek_status_getLsbD_seven (s : State) : (s.peek 0x2002#16).getLsbD 7 = s.ppu.status.getLsbD 7 :=
  (statusBits s.ppu.status (by decide)).trans (Bool.true_and _)

theorem State.touch_status_pending (s : State) : (s.touch 0x2002#16).pending = s.pending := rfl

/-- A read before the edge: the lock keeps the flag off, and so the Nmi (61_ppu.md R271). -/
theorem State.ppuStep_readBeforeEdge {s : State} (hline : s.ppu.scanline = 261) (hcycle : s.ppu.cycle = 340) :
    ((s.touch 0x2002#16).ppuStep 3).ppu.status.getLsbD 7 = false ∧ ((s.touch 0x2002#16).ppuStep 3).pending = s.pending
      ∧ ((s.touch 0x2002#16).ppuStep 3).ppu.vblankLock = false := by
  have hlock : (s.touch 0x2002#16).ppu.vblankLock = true := by simp [State.touch_status, Ppu.touchStatus, hline, hcycle]
  have hclear := s.touch_status_clear
  have hedge := State.ppuTick_edge (s := s.touch 0x2002#16) hline hcycle
  rw [hlock, if_pos rfl] at hedge
  have hafter : (s.touch 0x2002#16).ppuStep 3 = (s.touch 0x2002#16).ppuTick.ppuStep 2 := rfl
  rw [hafter, State.ppuStep_afterEdge_clear (by rw [hedge]) (by rw [hedge]) (by rw [hedge]; exact hclear), hedge]
  exact ⟨hclear, rfl, rfl⟩

/-- A read at the edge takes the flag before the Nmi is requested. -/
theorem State.ppuStep_readAtEdge {s : State} (hline : s.ppu.scanline = 0) (hcycle : s.ppu.cycle = 0) :
    ((s.touch 0x2002#16).ppuStep 2).pending = s.pending
      ∧ ((s.touch 0x2002#16).ppuStep 2).ppu.status.getLsbD 7 = false := by
  have hclear := s.touch_status_clear
  rw [State.ppuStep_afterEdge_clear (s := s.touch 0x2002#16) hline hcycle hclear]
  exact ⟨rfl, hclear⟩

/-- So does a read one cycle later. -/
theorem State.ppuStep_readAfterEdge {s : State} (hline : s.ppu.scanline = 0) (hcycle : s.ppu.cycle = 1) :
    ((s.touch 0x2002#16).ppuStep 1).pending = s.pending
      ∧ ((s.touch 0x2002#16).ppuStep 1).ppu.status.getLsbD 7 = false := by
  have hclear := s.touch_status_clear
  have hbefore : (s.touch 0x2002#16).ppu.cycle < 340 := by
    show s.ppu.cycle < 340
    omega
  have htick := State.ppuTick_vblankLine (s := s.touch 0x2002#16) hline hbefore
  rw [hclear, Bool.false_and, Bool.and_false] at htick
  show (s.touch 0x2002#16).ppuTick.pending = _ ∧ (s.touch 0x2002#16).ppuTick.ppu.status.getLsbD 7 = false
  rw [htick]
  exact ⟨rfl, hclear⟩

/-- The edge undisturbed, cycle by cycle. -/
theorem State.ppuStep_edge {s : State} (hline : s.ppu.scanline = 261) (hcycle : s.ppu.cycle = 340)
    (hlock : s.ppu.vblankLock = false) :
    s.ppuStep 1 = { s with ppu := { s.ppu with
        cycle := 0, scanline := 0, oddFrame := !s.ppu.oddFrame, vblankLock := false, status := s.ppu.status ||| 0x80#8 } }
      ∧ s.ppuStep 2 = { s.ppuStep 1 with ppu := { (s.ppuStep 1).ppu with cycle := 1 } }
      ∧ s.ppuStep 3 = { s.ppuStep 1 with
        ppu := { (s.ppuStep 1).ppu with cycle := 2 }
        pending := if s.ppu.ctrl.getLsbD 7 then (s.request .nmi).pending else s.pending } := by
  have hfirst : s.ppuStep 1 = { s with ppu := { s.ppu with
      cycle := 0, scanline := 0, oddFrame := !s.ppu.oddFrame, vblankLock := false, status := s.ppu.status ||| 0x80#8 } } := by
    show s.ppuTick = _
    rw [State.ppuTick_edge hline hcycle, hlock]
    rfl
  have hset : (s.ppuStep 1).ppu.status.getLsbD 7 = true := by simp [hfirst]
  refine ⟨hfirst, ?_, ?_⟩
  · show (s.ppuStep 1).ppuTick = _
    rw [State.ppuTick_vblankLine (by rw [hfirst]) (by simp [hfirst]), hfirst]
    rfl
  · show (s.ppuStep 1).ppuStep 2 = _
    rw [State.ppuStep_afterEdge (by rw [hfirst]) (by rw [hfirst]), hset, hfirst]
    rfl

/-- Settles O45: the cycles from the edge on, with and without a read before each of them. -/
theorem vBlankEdgeAndItsRaces : Obligations.VBlankEdgeAndItsRaces := by
  unfold Obligations.VBlankEdgeAndItsRaces
  intro s hline hcycle hlock
  have hlost := State.ppuStep_readBeforeEdge hline hcycle
  obtain ⟨hfirst, hsecond, hedge⟩ := State.ppuStep_edge hline hcycle hlock
  dsimp only
  generalize s.ppuStep 1 = at₁ at *
  generalize s.ppuStep 2 = at₂ at *
  generalize s.ppuStep 3 = edge at *
  have hplace : at₁.ppu.scanline = 0 ∧ at₁.ppu.cycle = 0 := by simp [hfirst]
  have hpending : at₁.pending = s.pending := by rw [hfirst]
  have hset : at₁.ppu.status.getLsbD 7 = true := by simp [hfirst]
  have hset₂ : at₂.ppu.status.getLsbD 7 = true := by rw [hsecond]; exact hset
  have hset₃ : edge.ppu.status.getLsbD 7 = true := by rw [hedge]; exact hset
  obtain ⟨hline₁, hcycle₁⟩ := hplace
  obtain ⟨hpending₁, hclear₁⟩ := State.ppuStep_readAtEdge hline₁ hcycle₁
  obtain ⟨hpending₂, hclear₂⟩ := State.ppuStep_readAfterEdge (s := at₂) (by rw [hsecond]; exact hline₁) (by rw [hsecond])
  refine ⟨⟨?_, by rw [hedge], hset₃, by rw [hedge]⟩, hlost, ⟨?_, hpending₁.trans hpending, hclear₁⟩,
    ⟨?_, hpending₂.trans ?_, hclear₂⟩, ?_, edge.touch_status_pending, edge.touch_status_clear⟩
  · rw [hedge]
    exact hline₁
  · rw [State.peek_status_getLsbD_seven, hset]
  · rw [State.peek_status_getLsbD_seven, hset₂]
  · rw [hsecond]
    exact hpending
  · rw [State.peek_status_getLsbD_seven, hset₃]

end Sys2Proof.Machine
end

section
/-! The PPU family, tier 2: sprite evaluation and the pixel at a column (61_ppu.md R283, R285, R286). -/

namespace Sys2Proof.Machine

/-! ## Sprite evaluation (61_ppu.md R283) -/

theorem Ppu.covers_iff (p : Ppu) (row n : Nat) :
    p.covers row n = true ↔ (p.oam.read (4 * n)).toNat ≤ row ∧ row < (p.oam.read (4 * n)).toNat + p.spriteHeight := by
  simp only [Ppu.covers, Ppu.spriteHeight, decide_eq_true_iff]

/-- The loop from sprite `n` on: the sprites found so far with those still covering the row, cut at the eighth; a ninth
is met exactly if there are more. -/
theorem Ppu.evaluateFrom_eq (p : Ppu) (row k n : Nat) {found : List SecondarySprite} (h : found.length ≤ 8) :
    evaluateFrom p.oam row p.spriteHeight k n found =
      ((found ++ ((List.range' n k).filter (p.covers row)).map (p.spriteEntry row)).take 8,
        decide (8 < found.length + ((List.range' n k).filter (p.covers row)).length)) := by
  induction k generalizing n found with
  | zero => simp [evaluateFrom, List.take_of_length_le h, h]
  | succ k ih =>
    unfold evaluateFrom
    dsimp only
    rw [List.range'_succ]
    by_cases hcovers : p.covers row n = true
    · rw [List.filter_cons_of_pos hcovers, if_pos ((p.covers_iff row n).mp hcovers)]
      by_cases hroom : found.length < 8
      · rw [if_pos hroom]
        refine (ih (n + 1) (found := found ++ [p.spriteEntry row n]) (by simpa using hroom)).trans ?_
        simp only [List.map_cons, List.append_assoc, List.singleton_append, List.length_append, List.length_cons,
          List.length_nil, Nat.zero_add, Nat.add_assoc, Nat.add_comm]
      · have hfull : found.length = 8 := by omega
        rw [if_neg hroom]
        simp [hfull]
    · rw [List.filter_cons_of_neg hcovers, if_neg fun h' => hcovers ((p.covers_iff row n).mpr h'), ih (n + 1) h]

/-- Settles O48: the loop over all 64 sprites from an empty list. -/
theorem spriteEvaluation : Obligations.SpriteEvaluation := by
  unfold Obligations.SpriteEvaluation
  intro p row found
  have hloop := p.evaluateFrom_eq row 64 0 (found := []) (Nat.zero_le 8)
  rw [← List.range_eq_range', List.nil_append, ← List.map_take, List.length_nil, Nat.zero_add] at hloop
  unfold Ppu.evaluateSprites
  rw [hloop]
  simp only [decide_eq_true_iff]
  rfl

/-! ## Layers of a pixel (61_ppu.md R285) -/

/-- Two bits side by side as a number. -/
theorem toNat_ofBool_append (hi lo : Bool) : (BitVec.ofBool hi ++ BitVec.ofBool lo).toNat = 2 * hi.toNat + lo.toNat := by
  cases hi <;> cases lo <;> rfl

theorem Ppu.backgroundAt_toNat (p : Ppu) (x : Nat) :
    (p.backgroundAt x).1.toNat = (p.backgroundBits x).1 ∧ (p.backgroundAt x).2.toNat = (p.backgroundBits x).2 := by
  unfold Ppu.backgroundAt Ppu.backgroundBits
  simp only [Bool.and_eq_true, Bool.or_eq_true, decide_eq_true_iff]
  split
  · exact ⟨toNat_ofBool_append _ _, toNat_ofBool_append _ _⟩
  · exact ⟨rfl, rfl⟩

/-- The slots are tried in order; the first with an opaque pixel wins. -/
theorem spriteAt_eq (x : Nat) (slots : List SpriteSlot) :
    spriteAt x slots
      = (slots.find? fun slot => slot.bits x != 0).map fun slot => (BitVec.ofNat 2 (slot.bits x), slot) := by
  induction slots with
  | nil => rfl
  | cons slot rest ih =>
    unfold spriteAt
    rw [List.find?_cons, ih]
    by_cases hshown : slot.x.toNat ≤ x ∧ x ≤ slot.x.toNat + 7
    · have hbits := toNat_ofBool_append (slot.hi.getLsbD (7 - (x - slot.x.toNat))) (slot.lo.getLsbD (7 - (x - slot.x.toNat)))
      have hslot : slot.bits x = _ := (if_pos hshown).trans hbits.symm
      rw [if_pos hshown]
      dsimp only
      generalize BitVec.ofBool (slot.hi.getLsbD (7 - (x - slot.x.toNat)))
        ++ BitVec.ofBool (slot.lo.getLsbD (7 - (x - slot.x.toNat))) = pattern at *
      by_cases htransparent : pattern = 0#2
      · rw [if_pos htransparent, hslot, htransparent]
        rfl
      · have hopaque : pattern.toNat ≠ 0 := fun hzero => htransparent (BitVec.eq_of_toNat_eq hzero)
        rw [if_neg htransparent, hslot, bne_iff_ne.mpr hopaque, Option.map_some, hslot, BitVec.ofNat_toNat,
          BitVec.setWidth_eq]
    · have hslot : slot.bits x = 0 := if_neg hshown
      rw [if_neg hshown, hslot]
      rfl

theorem Ppu.spriteAt_eq (p : Ppu) (x : Nat) :
    p.spriteAt x = (p.winner x).map fun slot => (BitVec.ofNat 2 (slot.bits x), slot) := by
  unfold Ppu.spriteAt Ppu.winner
  simp only [Bool.and_eq_true, Bool.or_eq_true, decide_eq_true_iff]
  split
  · exact Machine.spriteAt_eq x p.slots
  · rfl

/-- The winner is opaque. -/
theorem Ppu.winner_bits {p : Ppu} {x : Nat} {slot : SpriteSlot} (h : p.winner x = some slot) :
    slot.bits x ≠ 0 ∧ slot.bits x < 4 := by
  unfold Ppu.winner at h
  split at h
  · have hopaque := List.find?_some h
    refine ⟨by simpa using hopaque, ?_⟩
    unfold SpriteSlot.bits
    split
    · have := Bool.toNat_le (slot.hi.getLsbD (7 - (x - slot.x.toNat)))
      have := Bool.toNat_le (slot.lo.getLsbD (7 - (x - slot.x.toNat)))
      omega
    · decide
  · cases h

/-- An opaque sprite pixel has no mirror in the background half of the palette (61_ppu.md R263). -/
theorem palIndex_sprite (attr : Byte) {bits : Nat} (h : bits ≠ 0) (h' : bits < 4) :
    palIndex (1#1 ++ attr.extractLsb' 0 2 ++ BitVec.ofNat 2 bits) = 16 + 4 * (attr.toNat % 4) + bits := by
  have hall : ∀ (pal : BitVec 2) (b : BitVec 2), b ≠ 0#2 → palIndex (1#1 ++ pal ++ b) = 16 + 4 * pal.toNat + b.toNat := by
    decide
  have hb : BitVec.ofNat 2 bits ≠ 0#2 := by
    intro hzero
    have := congrArg BitVec.toNat hzero
    simp at this
    omega
  rw [hall _ _ hb]
  simp
  omega

theorem Ppu.pixelEntry_eq (p : Ppu) (x : Nat) :
    p.pixelEntry x =
      match p.winner x with
      | none =>
        if (p.backgroundBits x).1 = 0 then 0 else 4 * (p.backgroundBits x).2 + (p.backgroundBits x).1
      | some slot =>
        if (p.backgroundBits x).1 = 0 ∨ slot.attr.getLsbD 5 = false then 16 + 4 * (slot.attr.toNat % 4) + slot.bits x
        else 4 * (p.backgroundBits x).2 + (p.backgroundBits x).1 := by
  obtain ⟨hbg, hpalette⟩ := p.backgroundAt_toNat x
  have hzero : (p.backgroundAt x).1 = 0#2 ↔ (p.backgroundBits x).1 = 0 := by
    rw [← hbg]
    exact BitVec.toNat_inj.symm
  have hbackground : ((p.backgroundAt x).2 ++ (p.backgroundAt x).1).toNat
      = 4 * (p.backgroundBits x).2 + (p.backgroundBits x).1 := by
    rw [← hbg, ← hpalette]
    generalize (p.backgroundAt x).1 = low
    generalize (p.backgroundAt x).2 = high
    revert low high
    decide
  unfold Ppu.pixelEntry
  rw [p.spriteAt_eq]
  cases hwinner : p.winner x with
  | none => simp only [Option.map_none, hzero, hbackground]
  | some slot =>
    obtain ⟨hopaque, hlt⟩ := Ppu.winner_bits hwinner
    simp only [Option.map_some, hzero, hbackground, palIndex_sprite slot.attr hopaque hlt, Bool.not_eq_true']

theorem Ppu.spriteZeroHit_iff (p : Ppu) {x : Nat} :
    p.spriteZeroHit x = true
      ↔ ∃ slot, p.winner x = some slot ∧ slot.isZero = true ∧ (p.backgroundBits x).1 ≠ 0 ∧ x ≤ 254 := by
  obtain ⟨hbg, -⟩ := p.backgroundAt_toNat x
  have hzero : (p.backgroundAt x).1 = 0#2 ↔ (p.backgroundBits x).1 = 0 := by
    rw [← hbg]
    exact BitVec.toNat_inj.symm
  unfold Ppu.spriteZeroHit
  rw [p.spriteAt_eq]
  cases hwinner : p.winner x with
  | none => simp
  | some slot =>
    simp only [Option.map_some, Bool.and_eq_true, bne_iff_ne, ne_eq, hzero, decide_eq_true_iff, Option.some.injEq]
    constructor
    · rintro ⟨⟨hbackground, hfirst⟩, hcolumn⟩
      exact ⟨slot, rfl, hfirst, hbackground, hcolumn⟩
    · rintro ⟨_, rfl, hfirst, hbackground, hcolumn⟩
      exact ⟨⟨hbackground, hfirst⟩, hcolumn⟩

/-- The flags of the status byte after the pixel: the sprite-zero hit is bit 6. -/
theorem Ppu.drawPixel_status (p : Ppu) (x i : Nat) :
    (p.drawPixel x).status.getLsbD i = (p.status.getLsbD i || (decide (i = 6) && p.spriteZeroHit x)) := by
  have hbit : (0x40#8).getLsbD i = decide (i = 6) := by
    by_cases hi : i < 8
    · interval_cases i <;> rfl
    · rw [BitVec.getLsbD_of_ge _ i (by omega), decide_eq_false (by omega)]
  show (if p.spriteZeroHit x then p.status ||| 0x40#8 else p.status).getLsbD i = _
  cases p.spriteZeroHit x with
  | false => simp
  | true => simp only [if_true, BitVec.getLsbD_or, hbit, Bool.and_true]

/-- Settles O49: the layers are those of the statement, and the pixel is one write of the line buffer and one flag. -/
theorem pixelPriority : Obligations.PixelPriority := by
  unfold Obligations.PixelPriority
  intro p x hx bg background entry q
  have hentry : p.pixelEntry x = entry := p.pixelEntry_eq x
  refine ⟨rfl, fun k => ?_, fun i hi => ?_, ?_⟩
  · show Sparse.read 0#6 (Sparse.write 0#6 p.lineBuffer x ((p.palette.read (p.pixelEntry x)).setWidth 6)) k = _
    rw [Sparse.read_write, hentry]
    simp only [eq_comm (a := x)]
  · rw [p.drawPixel_status, decide_eq_false hi, Bool.false_and, Bool.or_false]
  · rw [← p.spriteZeroHit_iff, p.drawPixel_status, decide_eq_true rfl, Bool.true_and, Bool.or_eq_true]

end Sys2Proof.Machine
end

section
/-! The driver and cartridge families, tier 2: the controller ports (63_cartridge_bus_driver.md R372) and the cartridge's
window of the CPU bus (R352, R353). -/

namespace Sys2Proof.Machine

/-! ## The controller ports -/

theorem State.touch_port1 (s : State) :
    s.touch 0x4016#16 =
      { s with ports := { s.ports with shift1 := portShift s.ports.strobe s.ports.captured1 s.ports.shift1 } } := rfl

theorem State.touch_port2 (s : State) :
    s.touch 0x4017#16 =
      { s with ports := { s.ports with shift2 := portShift s.ports.strobe s.ports.captured2 s.ports.shift2 } } := rfl

/-- Reads of the first port move its own shift register alone. -/
theorem State.touch_port1_iterate (n : Nat) (s : State) :
    (State.touch 0x4016#16)^[n] s =
      { s with
        ports := { s.ports with shift1 := (portShift s.ports.strobe s.ports.captured1)^[n] s.ports.shift1 } } := by
  induction n with
  | zero => rfl
  | succ n ih => rw [Function.iterate_succ_apply', Function.iterate_succ_apply', ih, State.touch_port1]

/-- Reads of the second port move its own shift register alone. -/
theorem State.touch_port2_iterate (n : Nat) (s : State) :
    (State.touch 0x4017#16)^[n] s =
      { s with
        ports := { s.ports with shift2 := (portShift s.ports.strobe s.ports.captured2)^[n] s.ports.shift2 } } := by
  induction n with
  | zero => rfl
  | succ n ih => rw [Function.iterate_succ_apply', Function.iterate_succ_apply', ih, State.touch_port2]

/-- After `n` reads the next eight bits are those `n` places up, then ones. -/
theorem portShift_iterate_getLsbD (n : Nat) (captured shift : Byte) {i : Nat} (hi : i < 8) :
    ((portShift false captured)^[n] shift).getLsbD i = if i + n < 8 then shift.getLsbD (i + n) else true := by
  induction n generalizing i with
  | zero => simp [hi]
  | succ n ih =>
    rw [Function.iterate_succ_apply']
    by_cases hlast : i = 7
    · subst hlast
      rw [if_neg (by omega)]
      simp [portShift]
    · have hones : (0x80#8).getLsbD i = false := by interval_cases i <;> simp at hlast ⊢
      simp only [portShift, Bool.false_eq_true, if_false, BitVec.getLsbD_or, BitVec.getLsbD_ushiftRight, hones, Bool.or_false]
      rw [Nat.add_comm 1 i, ih (by omega), Nat.add_assoc, Nat.add_comm 1 n]

/-- Settles O40: each port's reads iterate its own shift register. -/
theorem controllersShiftOutTheButtons : Obligations.ControllersShiftOutTheButtons := by
  unfold Obligations.ControllersShiftOutTheButtons
  intro s on off n m hon hoff
  have hhigh : (s.memWrite 0x4016#16 on).1 = { s with ports := s.ports.writeStrobe on } := rfl
  have hlow (u : State) : (u.memWrite 0x4016#16 off).1 = { u with ports := u.ports.writeStrobe off } := rfl
  have hpeek1 (u : State) : u.peek 0x4016#16 = portBit u.ports.strobe u.ports.captured1 u.ports.shift1 := rfl
  have hpeek2 (u : State) : u.peek 0x4017#16 = portBit u.ports.strobe u.ports.captured2 u.ports.shift2 := rfl
  simp only [hlow, hhigh, State.touch_port1_iterate, State.touch_port2_iterate, hpeek1, hpeek2, Ports.writeStrobe, hon, hoff,
    if_true, Bool.false_eq_true, if_false, portBit, portShift_iterate_getLsbD n _ _ (Nat.zero_lt_succ 7),
    portShift_iterate_getLsbD m _ _ (Nat.zero_lt_succ 7), Nat.zero_add, and_self]

/-! ## The cartridge's window -/

/-- The location of PRG-ROM behind an address of the ROM window, in numbers. -/
theorem Cart.prgLocation_eq (c : Cart) {a : Addr} (h : 0x8000 ≤ a.toNat) {slot : Fin 32}
    (hslot : slot.val = (a.toNat - 0x8000) / 1024) : c.prgLocation a = 1024 * c.prgSlot[slot] + a.toNat % 1024 := by
  have hindex : (a.extractLsb' 10 5).toNat = slot.val := by
    rw [BitVec.extractLsb'_toNat, Nat.shiftRight_eq_div_pow, hslot]
    omega
  have hoffset : (a &&& 0x03FF#16).toNat = a.toNat % 1024 := by
    rw [BitVec.toNat_and]
    exact Nat.and_two_pow_sub_one_eq_mod _ 10
  unfold Cart.prgLocation
  simp only [hindex, hoffset]
  rfl

theorem State.memWrite_cartridge (s : State) {a : Addr} (v : Byte) (h : 0x4020 ≤ a.toNat) :
    s.memWrite a v = ({ s with cart := s.cart.writePrg a v }, 0) := by
  unfold State.memWrite
  rw [region_eq_cartridge.mpr h]

theorem Cart.writePrg_rom (c : Cart) {a : Addr} (v : Byte) (h : 0x8000 ≤ a.toNat) : c.writePrg a v = c.mapperWrite a v :=
  if_pos h

theorem Cart.writePrg_ram (c : Cart) {a : Addr} (v : Byte) (h : 0x6000 ≤ a.toNat) (h' : a.toNat < 0x8000) :
    c.writePrg a v = { c with prgRam := c.prgRam.write (a.toNat - 0x6000) v } := by
  unfold Cart.writePrg
  rw [if_neg (by omega), if_pos h]

/-- Only the byte written to in PRG-RAM reads differently afterwards. -/
theorem writeChanges_prgRam {a b : Addr} (h : 0x6000 ≤ a.toNat) (h' : a.toNat < 0x8000) (hb : b ≠ a) :
    writeChanges a b = false := by
  unfold writeChanges
  rw [region_eq_cartridge.mpr (by omega)]
  simp [hb, h, show ¬ 32768 ≤ a.toNat by omega]

/-- Settles O39: `readPrg` and `writePrg` by the two windows. -/
theorem cartridgeWindow : Obligations.CartridgeWindow := by
  unfold Obligations.CartridgeWindow
  intro s a b v
  refine ⟨fun slot hrom hslot => ⟨?_, _, s.memWrite_cartridge v (by omega), rfl, ?_, ?_⟩, fun hlow hhigh => ?_⟩
  · rw [s.peek_of_cartridge (by omega), Cart.readPrg, if_pos hrom, s.cart.prgLocation_eq hrom hslot]
  · exact (congrArg Cart.prgRom (s.cart.writePrg_rom v hrom)).trans (s.cart.mapperWrite_prgRom a v)
  · exact (congrArg Cart.prgRam (s.cart.writePrg_rom v hrom)).trans (s.cart.mapperWrite_prgRam a v)
  · have hwrite := s.memWrite_cartridge v (show 0x4020 ≤ a.toNat by omega)
    refine ⟨_, hwrite, ?_, ?_⟩
    · rw [s.cart.writePrg_ram v hlow hhigh]
    · have hread : (s.memWrite a v).1.peek b = if b = a then v else s.peek b := by
        by_cases hb : b = a
        · rw [if_pos hb, hb, s.peek_memWrite_same v (.inr ⟨hlow, hhigh⟩)]
        · rw [if_neg hb, s.peek_memWrite v (writeChanges_prgRam hlow hhigh hb)]
      rwa [hwrite] at hread

end Sys2Proof.Machine
end

section
/-! The cartridge family, tier 2: the register writes of NROM, UNROM and GxROM, the MMC1 serial port and the MMC3 counter
(63_cartridge_bus_driver.md R356 to R365). -/

namespace Sys2Proof.Machine

/-! ## NROM, UNROM, GxROM -/

theorem Cart.chrBanks_eq (c : Cart) : c.chrBanks = if c.chr8k = 0 then 8 else 8 * c.chr8k := by
  simp [Cart.chrBanks, Cart.chrIsRam]

/-- The first eight banks of `chr` are there whatever the image. -/
theorem Cart.mod_chrBanks (c : Cart) {k : Nat} (h : k < 8) : k % c.chrBanks = k := by
  refine Nat.mod_eq_of_lt ?_
  rw [c.chrBanks_eq]
  split <;> omega

/-- All 32 slots from one `SetPrg`. -/
theorem Cart.setPrg_all (c : Cart) (first : Nat) (i : Fin 32) :
    (c.setPrg 0 32 first).prgSlot[i] = (first + i) % (16 * c.prg16k) :=
  (c.setPrg_prgSlot 0 32 first i i.isLt).trans (if_pos ⟨Nat.zero_le _, by omega⟩)

/-- All 8 slots from one `SetChr`. -/
theorem Cart.setChr_all (c : Cart) (first : Nat) (j : Fin 8) :
    (c.setChr 0 8 first).chrSlot[j] = (first + j) % c.chrBanks :=
  (c.setChr_chrSlot 0 8 first j j.isLt).trans (if_pos ⟨Nat.zero_le _, by omega⟩)

/-- The upper half of the ROM window fixed at the last 16 KB. -/
theorem Cart.setPrg_fixedLast (c : Cart) (h : 1 ≤ c.prg16k) (i : Fin 32) :
    ((c.setPrg 0 16 0).setPrg 16 16 (c.prgBanks - 16)).prgSlot[i] =
      if i.val < 16 then i.val else 16 * c.prg16k + i - 32 := by
  have hlast : c.prgBanks = 16 * c.prg16k := rfl
  refine (Cart.setPrg_prgSlot 16 16 _ _ i i.isLt).trans ?_
  rw [Cart.setPrg_prgSlot 0 16 0 c i i.isLt, Cart.setPrg_prgBanks, hlast]
  by_cases hi : i.val < 16
  · rw [if_neg (by omega), if_pos (by omega), if_pos hi, Nat.zero_add, Nat.sub_zero, Nat.mod_eq_of_lt (by omega)]
  · rw [if_pos (by omega), if_neg hi, Nat.mod_eq_of_lt (by omega)]
    omega

theorem Cart.mapperWrite_nrom {c : Cart} (a : Addr) (b : Byte) (h : c.mapper = .nrom) : c.mapperWrite a b = c := by
  simp only [Cart.mapperWrite, h]

theorem Cart.mapperWrite_unrom {c : Cart} (a : Addr) (b : Byte) (h : c.mapper = .unrom) :
    c.mapperWrite a b = c.setPrg 0 16 (16 * b.toNat) := by
  simp only [Cart.mapperWrite, h]

/-- GxROM: two bits of the byte for each of the two banks. -/
theorem Cart.mapperWrite_gxrom {c : Cart} (a : Addr) (b : Byte) (h : c.mapper = .gxrom) :
    c.mapperWrite a b = (c.setPrg 0 32 (32 * (b.toNat / 16 % 4))).setChr 0 8 (8 * (b.toNat % 4)) := by
  simp only [Cart.mapperWrite, h, BitVec.extractLsb'_toNat, Nat.shiftRight_eq_div_pow, pow_zero, Nat.div_one]

/-- The two bank switches of a cartridge change its slots alone. -/
theorem Cart.setPrg_setChr_eq (c : Cart) (base n first base' n' first' : Nat) :
    (c.setPrg base n first).setChr base' n' first' =
      { c with
        prgSlot := ((c.setPrg base n first).setChr base' n' first').prgSlot
        chrSlot := ((c.setPrg base n first).setChr base' n' first').chrSlot } := by
  simp only [Cart.setPrg, Cart.setChr]

/-- Settles O53: `SetPrg` and `SetChr` slot by slot. -/
theorem simpleBoardsSwitchBanks : Obligations.SimpleBoardsSwitchBanks := by
  unfold Obligations.SimpleBoardsSwitchBanks
  intro image c a b i j hbanks
  refine ⟨?_, fun h => ?_, ?_, fun h => c.mapperWrite_nrom a b h, fun h => ?_, fun h => ?_⟩
  · rintro (h | h) <;> simp only [Cart.construct, h, Cart.setChr_prgSlot, Cart.setPrg_all, Nat.zero_add]
  · simp only [Cart.construct, h, Cart.setChr_prgSlot]
    exact Cart.setPrg_fixedLast
      { mapper := .unrom, prg16k := image.prg16k, chr8k := image.chr8k, prgRom := image.prgRom, prgRam := image.prgRam,
        chr := image.chr, ntExtra := image.ntExtra, battery := image.battery, mirroring := image.mirroring,
        prgSlot := Vector.replicate 32 0, chrSlot := Vector.replicate 8 0 } hbanks i
  · rintro (h | h | h) <;> simp only [Cart.construct, h, Cart.setChr_all, Nat.zero_add, Cart.mod_chrBanks _ j.isLt]
  · rw [c.mapperWrite_unrom a b h]
    refine ⟨rfl, (c.setPrg_prgSlot 0 16 _ i i.isLt).trans ?_⟩
    simp only [Nat.zero_le, Nat.zero_add, Nat.sub_zero, true_and]
    rfl
  · rw [c.mapperWrite_gxrom a b h]
    refine ⟨c.setPrg_setChr_eq .., ?_, ?_⟩
    · rw [Cart.setChr_prgSlot, Cart.setPrg_all]
    · rw [Cart.setChr_all, Cart.setPrg_chrBanks, Cart.chrBanks_eq]

/-! ## The MMC1 serial port -/

theorem Cart.mapperWrite_mmc1 {c : Cart} {r : Mmc1} (a : Addr) (b : Byte) (h : c.mapper = .mmc1 r) :
    c.mapperWrite a b = c.mmc1Write r a b := by
  simp only [Cart.mapperWrite, h]

theorem Cart.mmc1Write_reset (c : Cart) (r : Mmc1) (a : Addr) {b : Byte} (h : b.getLsbD 7 = true) :
    c.mmc1Write r a b = c.mmc1Update { r with sr := 0#5, srCount := 0, control := r.control ||| 0x0C#5 } :=
  if_pos h

/-- The port after one more bit. -/
def Mmc1.shifted (r : Mmc1) (b : Byte) : Mmc1 :=
  { r with sr := r.sr ||| ((b &&& 1#8).setWidth 5 <<< r.srCount), srCount := r.srCount + 1 }

/-- A bit written before the fifth goes to the port alone. -/
theorem Cart.mapperWrite_shift {c : Cart} {r : Mmc1} (a : Addr) {b : Byte} (hr : c.mapper = .mmc1 r)
    (hcount : r.srCount < 4) (h : b.getLsbD 7 = false) : c.mapperWrite a b = { c with mapper := .mmc1 (r.shifted b) } := by
  rw [c.mapperWrite_mmc1 a b hr, Cart.mmc1Write]
  simp only [h, Bool.false_eq_true, if_false, if_neg (show ¬ r.srCount + 1 = 5 by omega)]
  rfl

/-- The register that bits 14 and 13 of the fifth address name takes the five bits. -/
def Mmc1.load (r : Mmc1) (a : Addr) (value : BitVec 5) : Mmc1 :=
  if a.toNat / 8192 % 4 = 0 then { r with control := value }
  else if a.toNat / 8192 % 4 = 1 then { r with chr0 := value }
  else if a.toNat / 8192 % 4 = 2 then { r with chr1 := value }
  else { r with prg := value }

/-- The fifth bit loads the register the address names and empties the port. -/
theorem Cart.mmc1Write_fifth (c : Cart) (r : Mmc1) (a : Addr) {b : Byte} (h : b.getLsbD 7 = false) (hcount : r.srCount = 4) :
    c.mmc1Write r a b =
      c.mmc1Update
        ({ r with sr := 0#5, srCount := 0 }.load a (r.sr ||| ((b &&& 1#8).setWidth 5 <<< 4))) := by
  have hregister : (a.extractLsb' 13 2).toNat = a.toNat / 8192 % 4 := by
    rw [BitVec.extractLsb'_toNat, Nat.shiftRight_eq_div_pow]
  unfold Cart.mmc1Write Mmc1.load
  simp only [h, Bool.false_eq_true, if_false, hcount, if_true, hregister]
  congr 1
  match a.toNat / 8192 % 4 with
  | 0 | 1 | 2 | n + 3 => rfl

/-- Five bits or-ed together at their places are their weighted sum. -/
theorem orShifted : ∀ n₀ n₁ n₂ n₃ n₄ : Fin 2,
    ((((0#5 ||| BitVec.ofNat 5 n₀ <<< 0) ||| BitVec.ofNat 5 n₁ <<< 1) ||| BitVec.ofNat 5 n₂ <<< 2)
      ||| BitVec.ofNat 5 n₃ <<< 3) ||| BitVec.ofNat 5 n₄ <<< 4 =
      BitVec.ofNat 5 (n₀ + 2 * n₁ + 4 * n₂ + 8 * n₃ + 16 * n₄) := by
  decide

/-- The five bits shifted in are the number they spell, first written lowest. -/
theorem serialValue (b₀ b₁ b₂ b₃ b₄ : Byte) :
    ((((0#5 ||| ((b₀ &&& 1#8).setWidth 5 <<< 0)) ||| ((b₁ &&& 1#8).setWidth 5 <<< 1)) ||| ((b₂ &&& 1#8).setWidth 5 <<< 2))
      ||| ((b₃ &&& 1#8).setWidth 5 <<< 3)) ||| ((b₄ &&& 1#8).setWidth 5 <<< 4) =
      BitVec.ofNat 5
        (b₀.toNat % 2 + 2 * (b₁.toNat % 2) + 4 * (b₂.toNat % 2) + 8 * (b₃.toNat % 2) + 16 * (b₄.toNat % 2)) := by
  have hbit (b : Byte) : (b &&& 1#8).setWidth 5 = BitVec.ofNat 5 (b.toNat % 2) := by
    apply BitVec.eq_of_toNat_eq
    simp
    omega
  have hlt (b : Byte) : b.toNat % 2 < 2 := Nat.mod_lt _ (by decide)
  simp only [hbit]
  exact orShifted ⟨_, hlt b₀⟩ ⟨_, hlt b₁⟩ ⟨_, hlt b₂⟩ ⟨_, hlt b₃⟩ ⟨_, hlt b₄⟩

/-- The five low bits of five bytes, written to an empty port. -/
theorem Mmc1.shifted_sr {r : Mmc1} (hsr : r.sr = 0#5) (hcount : r.srCount = 0) (b₀ b₁ b₂ b₃ b₄ : Byte) :
    ((((r.shifted b₀).shifted b₁).shifted b₂).shifted b₃).sr ||| ((b₄ &&& 1#8).setWidth 5 <<< 4) =
      BitVec.ofNat 5
        (b₀.toNat % 2 + 2 * (b₁.toNat % 2) + 4 * (b₂.toNat % 2) + 8 * (b₃.toNat % 2) + 16 * (b₄.toNat % 2)) := by
  simp only [Mmc1.shifted, hsr, hcount]
  exact serialValue b₀ b₁ b₂ b₃ b₄

/-- Emptying the port gives back the registers it was empty with. -/
theorem Mmc1.shifted_emptied {r : Mmc1} (hsr : r.sr = 0#5) (hcount : r.srCount = 0) (b₀ b₁ b₂ b₃ : Byte) :
    { (((r.shifted b₀).shifted b₁).shifted b₂).shifted b₃ with sr := 0#5, srCount := 0 } = r := by
  rw [← hsr, ← hcount]
  rfl

/-- Settles O54: four shifts and a load, from an empty port. -/
theorem mmc1SerialPort : Obligations.Mmc1SerialPort := by
  unfold Obligations.Mmc1SerialPort
  intro c r a₀ a₁ a₂ a₃ a₄ b₀ b₁ b₂ b₃ b₄ hr
  refine ⟨fun h => (c.mapperWrite_mmc1 a₀ b₀ hr).trans (c.mmc1Write_reset r a₀ h), fun hsr hcount hlow => ?_⟩
  simp only [List.forall_mem_cons] at hlow
  obtain ⟨h₀, h₁, h₂, h₃, h₄, -⟩ := hlow
  have hone := c.mapperWrite_shift a₀ hr (by omega) h₀
  have htwo := Cart.mapperWrite_shift (c := { c with mapper := .mmc1 (r.shifted b₀) }) a₁ rfl
    (show r.srCount + 1 < 4 by omega) h₁
  have hthree := Cart.mapperWrite_shift (c := { c with mapper := .mmc1 ((r.shifted b₀).shifted b₁) }) a₂ rfl
    (show r.srCount + 1 + 1 < 4 by omega) h₂
  have hfour := Cart.mapperWrite_shift (c := { c with mapper := .mmc1 (((r.shifted b₀).shifted b₁).shifted b₂) }) a₃ rfl
    (show r.srCount + 1 + 1 + 1 < 4 by omega) h₃
  rw [hone, htwo, hthree, hfour]
  refine ⟨⟨_, rfl, show r.srCount + 1 + 1 + 1 + 1 = 4 by omega⟩, ?_⟩
  rw [Cart.mapperWrite_mmc1 a₄ b₄ rfl, Cart.mmc1Write_fifth _ _ _ h₄ (show r.srCount + 1 + 1 + 1 + 1 = 4 by omega)]
  rw [Mmc1.shifted_sr hsr hcount, Mmc1.shifted_emptied hsr hcount, Mmc1.load]

/-! ## The MMC3 counter -/

theorem Cart.observeA12_mmc3 {c : Cart} {r : Mmc3} (h : c.mapper = .mmc3 r) (fire : Config.Mmc3IrqFire) (a : PpuAddr) :
    c.observeA12 fire a =
      let clocked := if !r.lastA12 && a.getLsbD 12 then r.clockIrq fire else (r, false)
      ({ c with mapper := .mmc3 { clocked.1 with lastA12 := a.getLsbD 12 } }, clocked.2) := by
  simp only [Cart.observeA12, h]

theorem a12_eq (a : PpuAddr) : a.getLsbD 12 = decide (0x1000 ≤ a.toNat % 0x2000) := by
  rw [BitVec.getLsbD, Nat.testBit_eq_decide_div_mod_eq]
  congr 1
  apply propext
  omega

section Clock
variable {r : Mmc3}

theorem Mmc3.clockIrq_reload (h : r.irqReload = true) :
    r.clockIrq .onUnderflow = ({ r with irqCounter := r.irqLatch, irqReload := false }, false) := by
  simp [Mmc3.clockIrq, h]

/-- A clock by the value of the counter, with no reload requested. -/
theorem Mmc3.clockIrq_count (h : r.irqReload = false) (n : Byte) :
    Mmc3.clockIrq .onUnderflow { r with irqCounter := n } =
      if n = 0#8 then ({ r with irqCounter := r.irqLatch }, r.irqEnable) else ({ r with irqCounter := n - 1#8 }, false) := by
  simp [Mmc3.clockIrq, h]

/-- Clocks down to 0 lower the counter, one each. -/
theorem Mmc3.clockIrq_iterate (h : r.irqReload = false) {k : Nat} (hk : k ≤ r.irqCounter.toNat) :
    (fun q : Mmc3 => (q.clockIrq .onUnderflow).1)^[k] r = { r with irqCounter := r.irqCounter - BitVec.ofNat 8 k } := by
  induction k with
  | zero => simp
  | succ k ih =>
    have hpositive : r.irqCounter - BitVec.ofNat 8 k ≠ 0#8 := by bv_omega
    have hnext : r.irqCounter - BitVec.ofNat 8 k - 1#8 = r.irqCounter - BitVec.ofNat 8 (k + 1) := by bv_omega
    rw [Function.iterate_succ_apply', ih (by omega), Mmc3.clockIrq_count h, if_neg hpositive, hnext]

end Clock

/-- Settles O55: the counter's clocks one by one. -/
theorem mmc3CounterCountsRises : Obligations.Mmc3CounterCountsRises := by
  unfold Obligations.Mmc3CounterCountsRises
  intro c r a k
  refine ⟨fun h => ⟨fun hno => ?_, fun hlow hhigh => ?_⟩, Mmc3.clockIrq_reload, fun hreload hk => ?_⟩
  · rw [Cart.observeA12_mmc3 h, a12_eq]
    have hgate : (!r.lastA12 && decide (0x1000 ≤ a.toNat % 0x2000)) = false := by simpa using hno
    simp [hgate]
  · rw [Cart.observeA12_mmc3 h, a12_eq]
    simp [hlow, hhigh]
  · have hcount (n : Nat) (hn : n ≤ r.irqCounter.toNat) := Mmc3.clockIrq_iterate hreload hn
    refine ⟨hcount k hk, ?_, ?_⟩
    · have hzero : r.irqCounter - BitVec.ofNat 8 k = 0#8 ↔ k = r.irqCounter.toNat := by bv_omega
      rw [hcount k hk, Mmc3.clockIrq_count hreload]
      by_cases hlast : k = r.irqCounter.toNat
      · rw [if_pos (hzero.mpr hlast), decide_eq_true hlast, Bool.true_and]
      · rw [if_neg (mt hzero.mp hlast), decide_eq_false hlast, Bool.false_and]
    · have hzero : r.irqCounter - BitVec.ofNat 8 r.irqCounter.toNat = 0#8 := by simp
      rw [Function.iterate_succ_apply', hcount _ le_rfl, hzero, Mmc3.clockIrq_count hreload, if_pos rfl]

end Sys2Proof.Machine
end

section
/-! The APU family, tier 2: length counters, channel enables and the $4015 status byte (62_apu.md R302, R334, R335). -/

namespace Sys2Proof.Machine

/-! ## One length counter -/

theorem lengthTable_lt (n : Nat) : lengthTable.getD n 0 < 256 := by
  by_cases h : n < 32
  · interval_cases n <;> decide
  · rw [List.getD_eq_default _ _ (by simpa [lengthTable] using h)]
    decide

theorem LengthCounter.load_count (b : Byte) (l : LengthCounter) :
    (l.load b).count.toNat = if l.enabled then lengthTable.getD (b.toNat / 8) 0 else l.count.toNat := by
  have hindex : (b >>> 3).toNat = b.toNat / 8 := by
    rw [BitVec.toNat_ushiftRight, Nat.shiftRight_eq_div_pow]
  unfold LengthCounter.load
  split
  · rw [hindex, BitVec.toNat_ofNat, Nat.mod_eq_of_lt (lengthTable_lt _)]
  · rfl

theorem LengthCounter.clock_eq (l : LengthCounter) : l.clock = { l with count := l.clock.count } := by
  unfold LengthCounter.clock
  split <;> rfl

theorem LengthCounter.clock_count (l : LengthCounter) :
    l.clock.count.toNat = if l.halt then l.count.toNat else l.count.toNat - 1 := by
  unfold LengthCounter.clock
  cases hhalt : l.halt with
  | true => rfl
  | false =>
    by_cases hzero : l.count = 0#8
    · simp [hzero]
    · have hdown : (l.count - 1#8).toNat = l.count.toNat - 1 := by bv_omega
      simp [hzero, hdown]

theorem LengthCounter.active_iff (l : LengthCounter) : l.active = true ↔ l.count ≠ 0#8 := bne_iff_ne

theorem LengthCounter.active_of_zero {l : LengthCounter} (h : l.count = 0#8) : l.active = false :=
  bne_eq_false_iff_eq.mpr h

/-! ## The channels' fourth registers -/

theorem State.memWrite_fourth (s : State) (k : Fin 4) (b : Byte) :
    (s.memWrite (BitVec.ofNat 16 (0x4003 + 4 * k)) b).1 =
      { s with apu := s.apu.writeChannel (BitVec.ofNat 5 (3 + 4 * k)) b } := by
  match k with
  | 0 | 1 | 2 | 3 => rfl

/-- A write of a fourth register loads its own counter alone. -/
theorem Apu.counter_writeFourth (u : Apu) (k j : Fin 4) (b : Byte) :
    (u.writeChannel (BitVec.ofNat 5 (3 + 4 * k)) b).counter j =
      if j = k then (u.counter k).load b else u.counter j := by
  fin_cases k <;> fin_cases j <;> rfl

/-! ## Silence at 0 -/

theorem Pulse.output_of_zero (k : PulseId) {ch : Pulse} (h : ch.len.count = 0#8) : ch.output k = 0#4 := by
  simp [Pulse.output, LengthCounter.active_of_zero h]

theorem Noise.output_of_zero {ch : Noise} (h : ch.len.count = 0#8) : ch.output = 0#4 := by
  simp [Noise.output, LengthCounter.active_of_zero h]

/-- The triangle's sequence stands still while its counter is 0 (62_apu.md R315). -/
theorem Triangle.clockTimer_output_of_zero {ch : Triangle} (h : ch.len.count = 0#8) : ch.clockTimer.output = ch.output := by
  have hseq : ch.clockTimer.seq = ch.seq := by
    unfold Triangle.clockTimer
    split
    · simp [LengthCounter.active_of_zero h]
    · rfl
  simp only [Triangle.output, hseq]

/-! ## The $4015 register -/

theorem Dmc.enable_eq (on : Bool) (ch : Dmc) :
    ch.enable on =
      { ch with
        irq := false
        bytesRemaining :=
          if on = false then 0#12 else if ch.bytesRemaining = 0#12 then ch.sampleLen else ch.bytesRemaining
        curAddr := if on ∧ ch.bytesRemaining = 0#12 then ch.sampleAddr else ch.curAddr } := by
  cases on <;> simp [Dmc.enable]

/-- A status byte by its bits: five running flags and two IRQ flags. -/
theorem statusBits_getLsbD (b₀ b₁ b₂ b₃ b₄ b₆ b₇ : Bool) {i : Nat} (hi : i < 8) :
    (bitOf b₀ ||| (bitOf b₁ <<< 1) ||| (bitOf b₂ <<< 2) ||| (bitOf b₃ <<< 3) ||| (bitOf b₄ <<< 4) ||| (bitOf b₆ <<< 6)
      ||| (bitOf b₇ <<< 7)).getLsbD i = [b₀, b₁, b₂, b₃, b₄, false, b₆, b₇].getD i false := by
  revert b₀ b₁ b₂ b₃ b₄ b₆ b₇
  interval_cases i <;> decide

theorem Apu.statusByte_getLsbD (u : Apu) {i : Nat} (hi : i < 8) :
    u.statusByte.getLsbD i =
      [u.pulse1.len.active, u.pulse2.len.active, u.triangle.len.active, u.noise.len.active,
        u.dmc.bytesRemaining != 0#12, false, u.frame.irq, u.dmc.irq].getD i false :=
  statusBits_getLsbD _ _ _ _ _ _ _ hi

theorem Apu.statusByte_counter (u : Apu) (k : Fin 4) : u.statusByte.getLsbD k = (u.counter k).active := by
  rw [u.statusByte_getLsbD (by omega)]
  match k with
  | 0 | 1 | 2 | 3 => rfl

/-- Settles O50: the counter's rules and the four channels one by one. -/
theorem lengthCountersAndStatus : Obligations.LengthCountersAndStatus := by
  unfold Obligations.LengthCountersAndStatus
  intro s k b
  have hstatus : s.peek 0x4015#16 = s.apu.statusByte := rfl
  have henabled : (s.memWrite 0x4015#16 b).1 = { s with apu := s.apu.writeEnables b } := rfl
  rw [s.memWrite_fourth k b, hstatus, henabled]
  refine ⟨⟨?_, fun h => h.writeChannel _ b, fun j hj => ?_⟩, fun l => ⟨l.clock_eq, l.clock_count⟩,
    ⟨Pulse.output_of_zero _, Pulse.output_of_zero _, Triangle.clockTimer_output_of_zero, Noise.output_of_zero⟩,
    ⟨rfl, rfl, Dmc.enable_eq _ _⟩, ?_, ?_, ?_, ?_, ?_, rfl⟩
  · rw [s.apu.counter_writeFourth, if_pos rfl, LengthCounter.load_count]
    rfl
  · rw [s.apu.counter_writeFourth, if_neg hj]
  · rw [s.apu.statusByte_counter]
    exact LengthCounter.active_iff _
  · rw [s.apu.statusByte_getLsbD (by decide)]
    exact bne_iff_ne
  all_goals exact s.apu.statusByte_getLsbD (by decide)

end Sys2Proof.Machine
end

section
/-! The APU family, tier 2: the frame sequencer (62_apu.md R331 to R333). -/

namespace Sys2Proof.Machine

/-! ## The step table -/

/-- The rows of the step table that clock envelopes and the linear counter: all but the last of the 5-step mode. -/
def FrameSequencer.Quarter (f : FrameSequencer) : Prop := ¬ (f.fiveStep = true ∧ f.step = 4)

/-- The rows that clock length counters and sweeps as well. -/
def FrameSequencer.Half (f : FrameSequencer) : Prop :=
  if f.fiveStep then f.step = 0 ∨ f.step = 2 else f.step = 1 ∨ f.step = 3

/-- The row that sets the IRQ flag, unless inhibited. -/
def FrameSequencer.Fires (f : FrameSequencer) : Prop := f.fiveStep = false ∧ f.step = 3 ∧ f.irqInhibit = false

/-- The step table, its nine rows one by one. -/
theorem FrameSequencer.actions_iff {f : FrameSequencer} (h : f.StepOk) :
    (f.actions.1 = true ↔ f.Quarter) ∧ (f.actions.2.1 = true ↔ f.Half)
      ∧ ((f.actions.2.2 && !f.irqInhibit) = true ↔ f.Fires) := by
  obtain ⟨five, inhibit, div, step, irq⟩ := f
  cases five with
  | true =>
    have hstep : step < 5 := h
    interval_cases step <;> simp [actions, Quarter, Half, Fires]
  | false =>
    have hstep : step < 4 := h
    interval_cases step <;> simp [actions, Quarter, Half, Fires]

/-- No row clocks the length counters without the envelopes. -/
theorem FrameSequencer.Half.quarter {f : FrameSequencer} (h : f.Half) : f.Quarter := by
  rintro ⟨hfive, hstep⟩
  simp [Half, hfive, hstep] at h

/-! ## One clock of the sequencer -/

/-- The units that the sequencer's row clocks; the rest of the APU, its own registers apart, stays as it is. -/
theorem Apu.clockSequencer_units (u : Apu) :
    u.clockSequencer.1 =
      { (if u.frame.actions.2.1 then (if u.frame.actions.1 then u.quarterClock else u).halfClock
          else if u.frame.actions.1 then u.quarterClock else u) with
        frame := u.clockSequencer.1.frame } := rfl

theorem Apu.clockSequencer_frame (u : Apu) :
    u.clockSequencer.1.frame =
      { u.frame with
        irq := u.frame.irq || (u.frame.actions.2.2 && !u.frame.irqInhibit)
        step := if u.frame.step + 1 = (if u.frame.fiveStep then 5 else 4) then 0 else u.frame.step + 1 } := rfl

theorem Apu.clockSequencer_request (u : Apu) :
    u.clockSequencer.2 = (u.frame.actions.2.2 && !u.frame.irqInhibit) := rfl

/-! ## One cycle of the divider -/

section Divider
variable {u : Apu} {period : Nat}

/-- The divider standing at 0, with the sequencer's registers as they are. -/
def Apu.divided (u : Apu) : Apu := { u with frame := { u.frame with div := 0 } }

theorem Apu.clockFrameDivider_clocks (h : u.frame.div + 1 = period) : u.clockFrameDivider period = u.divided.clockSequencer :=
  if_pos h

theorem Apu.clockFrameDivider_counts (h : u.frame.div + 1 ≠ period) :
    u.clockFrameDivider period = ({ u with frame := { u.frame with div := u.frame.div + 1 } }, false) :=
  if_neg h

/-- What a cycle of the divider leaves of the sequencer's registers. -/
theorem Apu.clockFrameDivider_frame :
    (u.clockFrameDivider period).1.frame =
      { u.frame with
        div := (u.clockFrameDivider period).1.frame.div
        step := (u.clockFrameDivider period).1.frame.step
        irq := (u.clockFrameDivider period).1.frame.irq } := by
  by_cases h : u.frame.div + 1 = period
  · rw [Apu.clockFrameDivider_clocks h]
    rfl
  · rw [Apu.clockFrameDivider_counts h]

variable (hstep : u.frame.StepOk)
include hstep

theorem Apu.clockFrameDivider_half (h : u.frame.div + 1 = period) (hhalf : u.frame.Half) :
    (u.clockFrameDivider period).1 =
      { u.quarterClock.halfClock with frame := (u.clockFrameDivider period).1.frame } := by
  obtain ⟨hquarter, hhalf', -⟩ := FrameSequencer.actions_iff hstep
  have h1 : u.divided.frame.actions.1 = true := hquarter.mpr hhalf.quarter
  have h2 : u.divided.frame.actions.2.1 = true := hhalf'.mpr hhalf
  rw [Apu.clockFrameDivider_clocks h]
  refine (Apu.clockSequencer_units _).trans ?_
  simp only [h1, h2, if_true]
  rfl

theorem Apu.clockFrameDivider_quarter (h : u.frame.div + 1 = period) (hquarter : u.frame.Quarter) (hhalf : ¬ u.frame.Half) :
    (u.clockFrameDivider period).1 = { u.quarterClock with frame := (u.clockFrameDivider period).1.frame } := by
  obtain ⟨hquarter', hhalf', -⟩ := FrameSequencer.actions_iff hstep
  have h1 : u.divided.frame.actions.1 = true := hquarter'.mpr hquarter
  have h2 : u.divided.frame.actions.2.1 = false := Bool.eq_false_iff.mpr fun h' => hhalf (hhalf'.mp h')
  rw [Apu.clockFrameDivider_clocks h]
  refine (Apu.clockSequencer_units _).trans ?_
  simp only [h1, h2, if_true, Bool.false_eq_true, if_false]
  rfl

theorem Apu.clockFrameDivider_idle (h : ¬ (u.frame.div + 1 = period ∧ u.frame.Quarter)) :
    (u.clockFrameDivider period).1 = { u with frame := (u.clockFrameDivider period).1.frame } := by
  by_cases hclocks : u.frame.div + 1 = period
  · have hquarter : ¬ u.frame.Quarter := fun h' => h ⟨hclocks, h'⟩
    obtain ⟨hquarter', hhalf', -⟩ := FrameSequencer.actions_iff hstep
    have h1 : u.divided.frame.actions.1 = false := Bool.eq_false_iff.mpr fun h' => hquarter (hquarter'.mp h')
    have h2 : u.divided.frame.actions.2.1 = false := Bool.eq_false_iff.mpr fun h' => hquarter (hhalf'.mp h').quarter
    rw [Apu.clockFrameDivider_clocks hclocks]
    refine (Apu.clockSequencer_units _).trans ?_
    simp only [h1, h2, Bool.false_eq_true, if_false]
    rfl
  · rw [Apu.clockFrameDivider_counts hclocks]

theorem Apu.clockFrameDivider_fires (h : u.frame.div + 1 = period ∧ u.frame.Fires) :
    (u.clockFrameDivider period).1.frame.irq = true ∧ (u.clockFrameDivider period).2 = true := by
  obtain ⟨hclocks, hfires⟩ := h
  have hfire : (u.divided.frame.actions.2.2 && !u.divided.frame.irqInhibit) = true :=
    (FrameSequencer.actions_iff hstep).2.2.mpr hfires
  rw [Apu.clockFrameDivider_clocks hclocks, Apu.clockSequencer_request, Apu.clockSequencer_frame]
  simp only [hfire, Bool.or_true, and_self]

theorem Apu.clockFrameDivider_silent (h : ¬ (u.frame.div + 1 = period ∧ u.frame.Fires)) :
    (u.clockFrameDivider period).1.frame.irq = u.frame.irq ∧ (u.clockFrameDivider period).2 = false := by
  by_cases hclocks : u.frame.div + 1 = period
  · have hfire : (u.divided.frame.actions.2.2 && !u.divided.frame.irqInhibit) = false :=
      Bool.eq_false_iff.mpr fun h' => h ⟨hclocks, (FrameSequencer.actions_iff hstep).2.2.mp h'⟩
    rw [Apu.clockFrameDivider_clocks hclocks, Apu.clockSequencer_request, Apu.clockSequencer_frame]
    simp only [hfire, Bool.or_false, and_true]
    rfl
  · rw [Apu.clockFrameDivider_counts hclocks]
    exact ⟨rfl, rfl⟩

/-- The divider and the sequencer together count the cycles of the sequence. -/
theorem Apu.clockFrameDivider_position (hdiv : u.frame.div < period) :
    (u.clockFrameDivider period).1.frame.position period = (u.frame.position period + 1) % u.frame.length period := by
  have hrow : u.frame.step < if u.frame.fiveStep then 5 else 4 := hstep
  unfold FrameSequencer.position FrameSequencer.length
  by_cases hclocks : u.frame.div + 1 = period
  · rw [Apu.clockFrameDivider_clocks hclocks, Apu.clockSequencer_frame]
    show period * (if u.frame.step + 1 = (if u.frame.fiveStep then 5 else 4) then 0 else u.frame.step + 1) + 0 = _
    generalize (if u.frame.fiveStep then 5 else 4) = rows at hrow ⊢
    have hnext : period * u.frame.step + u.frame.div + 1 = period * (u.frame.step + 1) := by
      rw [Nat.mul_succ, Nat.add_assoc, hclocks]
    rw [hnext]
    by_cases hlast : u.frame.step + 1 = rows
    · rw [if_pos hlast, hlast, Nat.mod_self, Nat.mul_zero]
    · rw [if_neg hlast, Nat.add_zero, Nat.mod_eq_of_lt]
      exact Nat.mul_lt_mul_of_pos_left (by omega) (by omega)
  · rw [Apu.clockFrameDivider_counts hclocks]
    show period * u.frame.step + (u.frame.div + 1) = _
    generalize (if u.frame.fiveStep then 5 else 4) = rows at hrow ⊢
    have hend : period * u.frame.step + period ≤ period * rows := by
      rw [← Nat.mul_succ]
      exact Nat.mul_le_mul_left period hrow
    rw [Nat.mod_eq_of_lt (by omega), Nat.add_assoc]

end Divider

/-! ## The sequencer over any number of cycles -/

/-- Two sequencers at the same place: equal but for the two IRQ flags. -/
def FrameSequencer.SamePlace (f g : FrameSequencer) : Prop := g.fiveStep = f.fiveStep ∧ g.step = f.step ∧ g.div = f.div

/-- The rest of an APU cycle leaves the sequencer where its divider put it: only the sample DMA can reach it, by a read of
$4015. -/
theorem State.apuCycle_samePlace (s : State) : s.clockFrameDivider.apu.frame.SamePlace s.apuCycle.apu.frame := by
  have htimers (u : State) : u.clockTimers.apu.frame = u.apu.frame := by
    show (Apu.clockSampler _ _).frame = _
    unfold Apu.clockSampler
    split <;> rfl
  have hfill (u : State) : u.apu.frame.SamePlace u.fillBuffer.apu.frame := by
    unfold State.fillBuffer
    split
    · show u.apu.frame.SamePlace (u.touch u.apu.dmc.curAddr).apu.frame
      rcases u.touch_apu u.apu.dmc.curAddr with h | h <;> rw [h] <;> exact ⟨rfl, rfl, rfl⟩
    · exact ⟨rfl, rfl, rfl⟩
  unfold State.apuCycle
  rw [htimers]
  exact hfill s.clockFrameDivider.clockTriangle

theorem FrameSequencer.SamePlace.position {f g : FrameSequencer} (h : f.SamePlace g) (period : Nat) :
    g.position period = f.position period := by
  obtain ⟨-, hstep, hdiv⟩ := h
  unfold FrameSequencer.position
  rw [hstep, hdiv]

theorem FrameSequencer.SamePlace.length {f g : FrameSequencer} (h : f.SamePlace g) (period : Nat) :
    g.length period = f.length period := by
  unfold FrameSequencer.length
  rw [h.1]

/-- One cycle moves the position by one, in a sequence of the same length. -/
theorem State.apuCycle_position {s : State} (h : s.apu.CountersOk s.params) :
    s.apuCycle.apu.frame.position s.params.frameDividerPeriod =
        (s.apu.frame.position s.params.frameDividerPeriod + 1) % s.apu.frame.length s.params.frameDividerPeriod
      ∧ s.apuCycle.apu.frame.length s.params.frameDividerPeriod = s.apu.frame.length s.params.frameDividerPeriod := by
  obtain ⟨-, -, hdiv, hstep, -⟩ := h
  have hplace := s.apuCycle_samePlace
  refine ⟨(hplace.position _).trans (Apu.clockFrameDivider_position hstep hdiv), (hplace.length _).trans ?_⟩
  have hmode := congrArg FrameSequencer.fiveStep (Apu.clockFrameDivider_frame (u := s.apu) (period := s.params.frameDividerPeriod))
  exact congrArg (fun five => s.params.frameDividerPeriod * if five = true then 5 else 4) hmode

theorem State.apuStep_position (n : Nat) {s : State} (h : s.apu.CountersOk s.params) :
    (State.apuStep n s).apu.frame.position s.params.frameDividerPeriod =
      (s.apu.frame.position s.params.frameDividerPeriod + n) % s.apu.frame.length s.params.frameDividerPeriod := by
  induction n generalizing s with
  | zero =>
    obtain ⟨-, -, hdiv, hstep, -⟩ := h
    have hrow : s.apu.frame.step < if s.apu.frame.fiveStep then 5 else 4 := hstep
    refine (Nat.mod_eq_of_lt ?_).symm
    unfold FrameSequencer.position FrameSequencer.length
    calc s.params.frameDividerPeriod * s.apu.frame.step + s.apu.frame.div
      _ < s.params.frameDividerPeriod * s.apu.frame.step + s.params.frameDividerPeriod := Nat.add_lt_add_left hdiv _
      _ = s.params.frameDividerPeriod * (s.apu.frame.step + 1) := (Nat.mul_succ _ _).symm
      _ ≤ _ := Nat.mul_le_mul_left _ hrow
  | succ n ih =>
    obtain ⟨-, -, -, -, -, hparams, -⟩ := s.apuCycle_sameHardware
    obtain ⟨hposition, hlength⟩ := State.apuCycle_position h
    have hrest := ih (countersOk_apuKeeps.apuCycle h)
    rw [hparams, hposition, hlength, Nat.mod_add_mod, Nat.add_assoc, Nat.add_comm 1 n] at hrest
    exact hrest

/-! ## A write of $4017 -/

theorem Apu.writeFrame_eq (b : Byte) (u : Apu) :
    u.writeFrame b =
      { (if b.getLsbD 7 then u.quarterClock.halfClock else u) with
        frame :=
          { fiveStep := b.getLsbD 7, irqInhibit := b.getLsbD 6, div := 0, step := if b.getLsbD 7 then 1 else 0,
            irq := u.frame.irq && !b.getLsbD 6 } } := by
  unfold Apu.writeFrame
  cases b.getLsbD 7 with
  | true =>
    refine (Apu.clockSequencer_units _).trans ?_
    rw [Apu.clockSequencer_frame]
    simp [FrameSequencer.actions, Apu.quarterClock, Apu.halfClock]
  | false => simp

/-- Settles O51: the step table for one clock, an induction over the cycles for the position. -/
theorem frameSequencerSteps : Obligations.FrameSequencerSteps := by
  unfold Obligations.FrameSequencerSteps
  intro s b n h
  have hcounters := h
  obtain ⟨-, -, hdiv, hstep, -⟩ := hcounters
  refine ⟨⟨rfl, s.apu.writeFrame_eq b⟩, fun hquarter hhalf => Apu.clockFrameDivider_half hstep hhalf.1 hhalf.2,
    fun hquarter hhalf => Apu.clockFrameDivider_quarter hstep hquarter.1 hquarter.2 fun h' => hhalf ⟨hquarter.1, h'⟩,
    Apu.clockFrameDivider_idle hstep, ⟨rfl, Apu.clockFrameDivider_frame⟩, fun hfires => ?_, fun hsilent => ?_,
    Apu.clockFrameDivider_position hstep hdiv, State.apuStep_position n h, rfl⟩
  · obtain ⟨hirq, hrequest⟩ := Apu.clockFrameDivider_fires hstep hfires
    refine ⟨hirq, ?_⟩
    show mergeIf _ .irq s.pending = _
    rw [hrequest]
    rfl
  · obtain ⟨hirq, hrequest⟩ := Apu.clockFrameDivider_silent hstep hsilent
    refine ⟨hirq, ?_⟩
    show mergeIf _ .irq s.pending = _
    rw [hrequest]
    rfl

end Sys2Proof.Machine
end

section
/-! The APU family, tier 2: the delta-modulation channel's memory reader and output unit (62_apu.md R325, R326). -/

namespace Sys2Proof.Machine

/-! ## The memory reader -/

theorem Dmc.wantsByte_iff (ch : Dmc) : ch.wantsByte = true ↔ ch.bufferFull = false ∧ ch.bytesRemaining ≠ 0#12 := by
  simp [Dmc.wantsByte]

theorem State.fillBuffer_idle {s : State} (h : s.apu.dmc.bufferFull = true ∨ s.apu.dmc.bytesRemaining = 0#12) :
    s.fillBuffer = s := by
  refine if_neg fun hwants => ?_
  obtain ⟨hempty, hleft⟩ := s.apu.dmc.wantsByte_iff.mp hwants
  rcases h with h | h
  · exact Bool.false_ne_true (hempty.symm.trans h)
  · exact hleft h

/-- A fetch is an ordinary read of the CPU bus, and a request if the byte was the last of a sample with its Irq on. -/
theorem State.fillBuffer_fetch {s : State} (hempty : s.apu.dmc.bufferFull = false) (hleft : s.apu.dmc.bytesRemaining ≠ 0#12) :
    s.fillBuffer =
      { s.touch s.apu.dmc.curAddr with
        pending := mergeIf (s.apu.dmc.takeByte (s.peek s.apu.dmc.curAddr)).2 .irq (s.touch s.apu.dmc.curAddr).pending
        apu := { (s.touch s.apu.dmc.curAddr).apu with dmc := (s.apu.dmc.takeByte (s.peek s.apu.dmc.curAddr)).1 } } := by
  refine (if_pos (s.apu.dmc.wantsByte_iff.mpr ⟨hempty, hleft⟩)).trans ?_
  show ({ s.touch s.apu.dmc.curAddr with
    apu := { (s.touch s.apu.dmc.curAddr).apu with dmc := ((s.touch s.apu.dmc.curAddr).apu.dmc.takeByte _).1 }
    pending := mergeIf ((s.touch s.apu.dmc.curAddr).apu.dmc.takeByte _).2 .irq _ } : State) = _
  rw [s.touch_dmc]

section TakeByte
variable {ch : Dmc} (b : Byte)

/-- The last byte of a looped sample starts it again. -/
theorem Dmc.takeByte_loops (hlast : ch.bytesRemaining.toNat = 1) (hloop : ch.loop = true) :
    (ch.takeByte b).1.curAddr = ch.sampleAddr ∧ (ch.takeByte b).1.bytesRemaining = ch.sampleLen := by
  have hone : ch.bytesRemaining = 1#12 := BitVec.eq_of_toNat_eq hlast
  simp [Dmc.takeByte, hone, hloop]

theorem Dmc.takeByte_advances (h : ¬ (ch.bytesRemaining.toNat = 1 ∧ ch.loop = true)) (hleft : ch.bytesRemaining ≠ 0#12) :
    (ch.takeByte b).1.curAddr.toNat = (if ch.curAddr.toNat = 0xFFFF then 0x8000 else ch.curAddr.toNat + 1)
      ∧ (ch.takeByte b).1.bytesRemaining.toNat = ch.bytesRemaining.toNat - 1 := by
  have hrestart : (ch.bytesRemaining == 1#12 && ch.loop) = false := by
    refine Bool.eq_false_iff.mpr fun hboth => h ?_
    obtain ⟨hone, hloop⟩ := Bool.and_eq_true_iff.mp hboth
    exact ⟨congrArg BitVec.toNat (eq_of_beq hone), hloop⟩
  have hdown : (ch.bytesRemaining - 1#12).toNat = ch.bytesRemaining.toNat - 1 := by bv_omega
  simp only [Dmc.takeByte, hrestart, Bool.false_eq_true, if_false, hdown, and_true]
  by_cases hend : ch.curAddr = 0xFFFF#16
  · simp [hend]
  · have hnext : (ch.curAddr + 1#16).toNat = ch.curAddr.toNat + 1 := by bv_omega
    have hend' : ch.curAddr.toNat ≠ 0xFFFF := fun h' => hend (BitVec.eq_of_toNat_eq h')
    rw [if_neg hend, if_neg hend', hnext]

/-- The flag and the request come with the last byte of a sample that does not loop, if enabled. -/
theorem Dmc.takeByte_request :
    (ch.takeByte b).2 = true ↔ ch.bytesRemaining.toNat = 1 ∧ ch.loop = false ∧ ch.irqEnable = true := by
  have hlast : ch.bytesRemaining = 1#12 ↔ ch.bytesRemaining.toNat = 1 := by bv_omega
  simp [Dmc.takeByte, hlast, and_assoc]

theorem Dmc.takeByte_irq : (ch.takeByte b).1.irq = (ch.irq || (ch.takeByte b).2) := rfl

end TakeByte

/-! ## The output unit -/

theorem dmcRate_lt (i : BitVec 4) : dmcRate.getD i.toNat 0 < 512 := by
  revert i
  decide

/-- The level moves by 2 within 0 to 126 and keeps its low bit, here in halves. -/
theorem dmcLevel_toNat : ∀ (level : BitVec 7) (bit : Bool),
    (dmcLevel level bit).toNat % 2 = level.toNat % 2
      ∧ (dmcLevel level bit).toNat / 2 = if bit then min 63 (level.toNat / 2 + 1) else level.toNat / 2 - 1 := by
  decide +kernel

section Output
variable {d : Dmc}

theorem Dmc.clockOutput_waits (h : d.timer ≠ 0#9) : d.clockOutput = { d with timer := d.timer - 1#9 } :=
  if_pos h

variable (h : d.timer = 0#9)
include h

theorem Dmc.clockOutput_eq :
    d.clockOutput =
      { d with
        timer := d.clockOutput.timer
        level := d.clockOutput.level
        bitsRemaining := d.clockOutput.bitsRemaining
        shift := d.clockOutput.shift
        bufferFull := d.clockOutput.bufferFull
        silence := d.clockOutput.silence } := by
  simp [Dmc.clockOutput, h]

theorem Dmc.clockOutput_timer : d.clockOutput.timer.toNat = dmcRate.getD d.rateIndex.toNat 0 - 1 := by
  have hrate : dmcRate.getD d.rateIndex.toNat 0 - 1 < 512 := Nat.lt_of_le_of_lt (Nat.sub_le _ _) (dmcRate_lt _)
  simp only [Dmc.clockOutput, h, ne_eq, not_true_eq_false, if_false]
  rw [BitVec.toNat_ofNat, Nat.mod_eq_of_lt hrate]

theorem Dmc.clockOutput_level :
    d.clockOutput.level = if d.silence then d.level else dmcLevel d.level (d.shift.getLsbD 0) := by
  simp [Dmc.clockOutput, h]

/-- Before the last bit of a byte: the bit counter goes down and the byte is shifted. -/
theorem Dmc.clockOutput_bit (hmore : ¬ d.bitsRemaining.toNat ≤ 1) :
    d.clockOutput.bitsRemaining.toNat = d.bitsRemaining.toNat - 1 ∧ d.clockOutput.shift.toNat = d.shift.toNat / 2
      ∧ d.clockOutput.bufferFull = d.bufferFull ∧ d.clockOutput.silence = d.silence := by
  have hsome : d.bitsRemaining ≠ 0#4 := by bv_omega
  have hleft : d.bitsRemaining - 1#4 ≠ 0#4 := by bv_omega
  have hdown : (d.bitsRemaining - 1#4).toNat = d.bitsRemaining.toNat - 1 := by bv_omega
  simp [Dmc.clockOutput, h, hsome, hleft, hdown, Nat.shiftRight_eq_div_pow]

/-- The last bit of a byte: the next byte comes from the buffer, or the unit falls silent. -/
theorem Dmc.clockOutput_lastBit (hlast : d.bitsRemaining.toNat ≤ 1) :
    d.clockOutput.bitsRemaining = 8#4 ∧ d.clockOutput.bufferFull = false ∧ d.clockOutput.silence = !d.bufferFull
      ∧ d.clockOutput.shift = if d.bufferFull then d.buffer else d.shift >>> 1 := by
  have hnone : (if d.bitsRemaining = 0#4 then d.bitsRemaining else d.bitsRemaining - 1#4) = 0#4 := by
    split <;> bv_omega
  simp [Dmc.clockOutput, h, hnone]

end Output

/-- Settles O52: the reader's cases by the last byte, the output unit's by the last bit. -/
theorem sampleChannel : Obligations.SampleChannel := by
  unfold Obligations.SampleChannel
  intro s d
  refine ⟨State.fillBuffer_idle, fun hempty hleft => ?_, fun htimer => ?_, fun htimer => ?_⟩
  · rw [State.fillBuffer_fetch hempty hleft]
    refine ⟨⟨_, _, _, _, rfl⟩, Dmc.takeByte_loops _, fun h => Dmc.takeByte_advances _ h hleft, fun hlast hloop hirq => ?_,
      fun h => ?_⟩
    · have hrequest := (Dmc.takeByte_request (s.peek s.apu.dmc.curAddr)).mpr ⟨hlast, hloop, hirq⟩
      simp only [Dmc.takeByte_irq, hrequest, Bool.or_true, true_and]
      rfl
    · have hrequest := Bool.eq_false_iff.mpr (mt (Dmc.takeByte_request (s.peek s.apu.dmc.curAddr)).mp h)
      simp only [Dmc.takeByte_irq, hrequest, Bool.or_false, true_and]
      rfl
  · have hdown : (d.timer - 1#9).toNat = d.timer.toNat - 1 := by bv_omega
    rw [Dmc.clockOutput_waits htimer]
    exact ⟨rfl, hdown⟩
  · obtain ⟨hlow, hhalf⟩ := dmcLevel_toNat d.level (d.shift.getLsbD 0)
    have hlevel := Dmc.clockOutput_level htimer
    refine ⟨Dmc.clockOutput_eq htimer, Dmc.clockOutput_timer htimer, ?_, fun hsilent => ?_, fun hsound hbit => ?_,
      fun hsound hbit => ?_, Dmc.clockOutput_bit htimer, fun hends => ?_⟩
    · rw [hlevel]
      split
      · rfl
      · exact hlow
    · rw [hlevel, if_pos hsilent]
    · rw [hlevel, hsound, if_neg Bool.false_ne_true, hhalf, if_pos hbit]
    · rw [hlevel, hsound, if_neg Bool.false_ne_true, hhalf, hbit, if_neg Bool.false_ne_true]
    · obtain ⟨hbits, hfull, hsilence, hshift⟩ := Dmc.clockOutput_lastBit htimer hends
      refine ⟨hbits, hfull, hsilence, fun hbuffer => ?_, fun hbuffer => ?_⟩
      · rw [hshift, if_pos hbuffer]
      · rw [hshift, hbuffer, if_neg Bool.false_ne_true, BitVec.toNat_ushiftRight, Nat.shiftRight_eq_div_pow]

end Sys2Proof.Machine
end

section
/-! The reset family: the first step of a run (70_reset_and_hazards.md R391). -/

namespace Sys2Proof.Machine

/-! ## The devices over the first cycles -/

theorem Dmc.clockOutput_bytesRemaining (d : Dmc) : d.clockOutput.bytesRemaining = d.bytesRemaining := by
  by_cases h : d.timer = 0#9
  · rw [Dmc.clockOutput_eq h]
  · rw [Dmc.clockOutput_waits h]

/-- A cycle of the sampler that emits no sample. -/
theorem State.clockTimers_quiet {s : State} (h : s.apu.sampleDiv + 1 ≠ s.params.sampleDivider) :
    s.clockTimers = { s with apu := { s.apu.clockTimers s.params.apuTiming with sampleDiv := s.apu.sampleDiv + 1 } } :=
  congrArg (fun u => { s with apu := u }) (if_neg h)

/-- An APU cycle in which neither divider ends and no sample plays stays inside the APU. -/
theorem State.apuCycle_quiet {s : State} (hframe : s.apu.frame.div + 1 ≠ s.params.frameDividerPeriod)
    (hsampler : s.apu.sampleDiv + 1 ≠ s.params.sampleDivider) (hdmc : s.apu.dmc.bytesRemaining = 0#12) :
    ∃ u : Apu, s.apuCycle = { s with apu := u } ∧ u.frame.div = s.apu.frame.div + 1 ∧ u.sampleDiv = s.apu.sampleDiv + 1
      ∧ u.dmc.bytesRemaining = 0#12 := by
  have hdivider : s.clockFrameDivider =
      { s with apu := { s.apu with frame := { s.apu.frame with div := s.apu.frame.div + 1 } } } := by
    rw [State.clockFrameDivider, Apu.clockFrameDivider_counts hframe]
    rfl
  have hfill : s.clockFrameDivider.clockTriangle.fillBuffer = s.clockFrameDivider.clockTriangle :=
    State.fillBuffer_idle (.inr (by rw [hdivider]; exact hdmc))
  have hbefore : s.clockFrameDivider.clockTriangle.clockDmc =
      { s with
        apu := { s.apu with
          frame := { s.apu.frame with div := s.apu.frame.div + 1 }
          triangle := s.apu.triangle.clockTimer
          dmc := s.apu.dmc.clockOutput } } := by
    rw [State.clockDmc, hfill, hdivider]
    rfl
  have htimers := State.clockTimers_quiet (s := s.clockFrameDivider.clockTriangle.clockDmc) (by rw [hbefore]; exact hsampler)
  rw [State.apuCycle, htimers, hbefore]
  exact ⟨_, rfl, rfl, rfl, (Dmc.clockOutput_bytesRemaining _).trans hdmc⟩

/-- Cycles before either divider ends, while no sample plays, only count. -/
theorem State.apuStep_quiet (n : Nat) {s : State} (hframe : s.apu.frame.div + n < s.params.frameDividerPeriod)
    (hsampler : s.apu.sampleDiv + n < s.params.sampleDivider) (hdmc : s.apu.dmc.bytesRemaining = 0#12) :
    ∃ u : Apu, State.apuStep n s = { s with apu := u } ∧ u.frame.div = s.apu.frame.div + n
      ∧ u.sampleDiv = s.apu.sampleDiv + n := by
  induction n generalizing s with
  | zero => exact ⟨s.apu, rfl, rfl, rfl⟩
  | succ n ih =>
    obtain ⟨v, hcycle, hdiv, hsample, hidle⟩ := State.apuCycle_quiet (s := s) (by omega) (by omega) hdmc
    obtain ⟨u, hrest, hdiv', hsample'⟩ := ih (s := { s with apu := v }) (by dsimp only; omega) (by dsimp only; omega) hidle
    refine ⟨u, ?_, ?_, ?_⟩
    · rw [State.apuStep, hcycle, hrest]
    · rw [hdiv', hdiv, Nat.add_assoc, Nat.add_comm 1]
    · rw [hsample', hsample, Nat.add_assoc, Nat.add_comm 1]

/-- On the first line of a frame, with the VBlank flag clear, PPU cycles only count. -/
theorem State.ppuStep_firstLine (n : Nat) {s : State} (hline : s.ppu.scanline = 0) (hcycle : s.ppu.cycle + n ≤ 340)
    (hclear : s.ppu.status.getLsbD 7 = false) :
    State.ppuStep n s = { s with ppu := { s.ppu with cycle := s.ppu.cycle + n } } := by
  induction n generalizing s with
  | zero => rfl
  | succ n ih =>
    have htick : s.ppuTick = { s with ppu := { s.ppu with cycle := s.ppu.cycle + 1 } } := by
      rw [State.ppuTick_vblankLine hline (by omega), hclear, Bool.false_and, Bool.and_false]
      rfl
    have hrest := ih (s := { s with ppu := { s.ppu with cycle := s.ppu.cycle + 1 } }) hline (by dsimp only; omega) hclear
    rw [State.ppuStep, htick, hrest]
    simp only [Nat.add_assoc, Nat.add_comm 1 n]

/-- Settles O9: the Reset service, then 7 APU cycles and 21 PPU cycles that only count. -/
theorem firstStepOfARun : Obligations.FirstStepOfARun := by
  unfold Obligations.FirstStepOfARun
  intro image u s
  refine ⟨rfl, ?_⟩
  obtain ⟨t, hstep, ha, hx, hy, hsp, hp, hpc, hcyc, hsame⟩ := resetIsServiced s rfl
  obtain ⟨hpending, -, hppu, hapu, -, -, hparams, -⟩ := hsame
  have hline : t.ppu.scanline = 0 := congrArg Ppu.scanline hppu
  have hcycle : t.ppu.cycle = 0 := congrArg Ppu.cycle hppu
  have hstatus : t.ppu.status = 0#8 := congrArg Ppu.status hppu
  have happ : t.apu = Apu.reset := hapu
  have hq : t.params = Config.params := hparams
  obtain ⟨v, hsteps, hdiv, hsample⟩ := State.apuStep_quiet 7 (s := t) (by rw [happ, hq]; decide) (by rw [happ, hq]; decide)
    (by rw [happ]; rfl)
  have hframes := State.ppuStep_firstLine 21 (s := { t with apu := v }) hline (by rw [hcycle]; decide)
    (by rw [hstatus]; rfl)
  have hnext : step s = .next { t with apu := v, ppu := { t.ppu with cycle := t.ppu.cycle + 21 } } := by
    rw [hstep]
    show Host.Outcome.next (State.ppuStep 21 (State.apuStep 7 t)) = _
    rw [hsteps, hframes]
  refine ⟨_, hnext, ha, hx, hy, hsp, hp, hpc, hpending, hcyc, ?_, ?_, hline, ?_⟩
  · rw [hdiv, happ]
    rfl
  · rw [hsample, happ]
    rfl
  · show t.ppu.cycle + 21 = 21
    rw [hcycle]

end Sys2Proof.Machine
end
